-- ==== Sys2Proof/Word.lean ====
section
/-! DEFINITION. Word.lean: the byte and the word of the message link and of the stored tables. -/

namespace Sys2Proof

/-- A byte of a message frame (R212). -/
abbrev Byte := BitVec 8

/-- A word of a table or of a slot: "Words are 16 bits" (R189). -/
abbrev Word := BitVec 16

end Sys2Proof
end

