-- ==== Sys2Proof/Config.lean ====
section
/-! DEFINITION. Config.lean: what is fixed when the part is built (the factory block, R188) and the free values, which the manual leaves open. -/

namespace Sys2Proof

/-- The factory block, record id 9, in its word order (R188, R212). -/
structure Factory where
  dcapN : Int
  dcapF : Int
  vmax : Int
  imaxN : Int
  imaxF : Int
  itripN : Int
  itripF : Int
  idisMax : Int
  linkAddr : Nat
  /-- In tenths of a millisecond. -/
  attachFilter : Nat
  /-- In milliseconds. -/
  hingeFilter : Nat
  bootHold : Bool
  family : Nat
  revision : Nat
  deriving DecidableEq, Repr

/-- The standard build (R188). -/
def Factory.standard : Factory where
  dcapN := 2450
  dcapF := 2050
  vmax := 4480
  imaxN := 4000
  imaxF := 3000
  itripN := 7000
  itripF := 5500
  idisMax := 5000
  linkAddr := 0x35
  attachFilter := 20
  hingeFilter := 8
  bootHold := false
  family := 240
  revision := 1

/-- The fields of replies whose bytes the manual does not give while they hold no value. -/
inductive AbsentField where
  /-- R37: the voltage of the latest seed, when no seed is noted. -/
  | seedVoltage
  /-- R37: the s of the latest seed, when no seed is noted. -/
  | seedS
  /-- R127: the ordered value of an order that has none. -/
  | orderedValue
  /-- R83: the value of the near order of the frame record, when it has none. -/
  | nearFrameOrder
  /-- R83: the value of the far order of the frame record, when it has none. -/
  | farFrameOrder
  /-- R83: the discharge limit of a frame that has none. -/
  | dischargeLimit
  deriving DecidableEq, Repr

/-- FREE VALUE (log 5): what a reply holds in a field that has no value.
The second argument is the state's fresh counter. -/
opaque Config.absent : AbsentField → Nat → Word

/-- The timers whose time left a reply reports (R154, R127, R175, R208). -/
inductive TimerField where
  | settle | supervisor | ramp | retryN | retryF
  deriving DecidableEq, Repr

/-- FREE VALUE (log 4): whether a part of a millisecond left on a timer is counted as a whole one in the
reply that reports it. The second argument is the state's fresh counter. -/
opaque Config.partMsCounts : TimerField → Nat → Bool

/-- FREE VALUE (log 6): whether BUSY comes before BADARG for a STORE or LOAD that earns both (R191, R195). -/
opaque Config.busyBeforeBadArg : Nat → Bool

/-- FREE VALUE (log 7): the count byte of the reply to a TABLE-READ refused for a count above 28 (R210). -/
opaque Config.refusedReadCount : Nat → Byte

/-- FREE VALUE (log 30): whether a revert's action at the input stage comes before its action at the transfer operation (R205: "in any order among themselves"). -/
opaque Config.revertInputFirst : Nat → Bool

/-- FREE VALUE (log 30): whether, where a revert's action at the input stage comes first and issues input
granted, the transfer operation takes that event before the revert's own action (R105: "The first taken ends
the transfer and records its cause"). -/
opaque Config.revertGrantFirst : Nat → Bool

/-- FREE VALUE (log 44): whether a revert that returns the input to ACTIVE removes the HOST suspend reason before
it sets ILIM and VFLOOR (R145 gives its three actions no order). -/
opaque Config.hostReasonFirst : Nat → Bool

/-- FREE VALUE (log 45): the completed set and the cancel flag in a reply that gives the store state in IDLE,
where no operation runs and the state holds neither (R191, R212). -/
opaque Config.idleStore : Nat → Word × Byte

end Sys2Proof
end

