-- ==== Sys2Proof/Syntax.lean ====
section
/-! DEFINITION. Syntax.lean: the commands of the part, one constructor for each row of spec/opcode_table.json, with the operands each row's event carries. -/

namespace Sys2Proof

/-- The two cells (chapter 00, Conventions). -/
inductive Cell where
  | near
  | far
  deriving DecidableEq, Repr

/-- The other cell. -/
def Cell.other : Cell → Cell
  | .near => .far
  | .far => .near

/-- One thing for each cell. -/
structure PerCell (α : Type) where
  near : α
  far : α
  deriving DecidableEq, Repr

/-- The two comparators of the charging input (R130). -/
inductive Comparator where
  | present
  | ov
  deriving DecidableEq, Repr

/-- The two fold sense inputs (R147). -/
inductive FoldSense where
  | foldA
  | foldB
  deriving DecidableEq, Repr

/-- One conversion of a round: the raw code, in two's complement, and the saturation report (R6). -/
structure Conversion where
  code : Word
  saturated : Bool
  deriving DecidableEq, Repr

/-- One thing for each of the twelve channels, in conversion order (R9). -/
structure PerChannel (α : Type) where
  vbus : α
  ibus : α
  vsys : α
  iload : α
  vcn : α
  icn : α
  vcf : α
  icf : α
  vfn : α
  tn : α
  tf : α
  tdie : α
  deriving DecidableEq, Repr

/-- The events of other blocks that end a transfer at once (R105).
The HOST cause is taken within its request, and STALE within its frame. -/
inductive TransferEvent where
  | inputGranted
  | hingeUnsettled
  /-- The restriction of a path changed from NONE. -/
  | restriction (c : Cell)
  /-- The inhibit set of a cell became non-empty. -/
  | inhibit (c : Cell)
  | sysUv
  deriving DecidableEq, Repr

/-- The commands. The name of each constructor is its row's mnemonic. -/
inductive Instr where
  /-- R18 and the power-on rules of every block. -/
  | powerOnReset
  /-- R196. -/
  | powerOnLoad
  /-- R196. -/
  | powerOnLoadCompletion
  /-- R4. -/
  | roundTimerExpiry
  /-- R7. The twelve conversions of the round that completes. -/
  | roundCompletion (conv : PerChannel Conversion)
  /-- R23. -/
  | counterSetSteps (c : Cell)
  /-- R34. -/
  | fullMark (c : Cell)
  /-- R59. -/
  | sequencerSetHandling (c : Cell)
  /-- R73. -/
  | safetyTimerExpiry (c : Cell)
  /-- R75. -/
  | seqInputGranted (c : Cell)
  /-- R75. -/
  | seqInputWithdrawn (c : Cell)
  /-- R179. -/
  | seqInhibitEvent (c : Cell)
  /-- R124. -/
  | seqFaultReasonUpdate (c : Cell)
  /-- R76. -/
  | seqPromotion (c : Cell)
  /-- R161. -/
  | protectionSetReaction
  /-- R141. -/
  | inputSagDerateStep
  /-- R82. -/
  | allocationFrame
  /-- R105. The event taken. -/
  | transferEventEnd (e : TransferEvent)
  /-- R113. -/
  | pathOrderDelivery (c : Cell)
  /-- R114. -/
  | pathRestrictionChange (c : Cell)
  /-- R118. -/
  | rampTimerExpiry (c : Cell)
  /-- R120. -/
  | pathInputGranted (c : Cell)
  /-- R121. -/
  | pathInputWithdrawn (c : Cell)
  /-- R122. -/
  | pathHingeUnsettled
  /-- R93. -/
  | grantsClearedOnWithdrawal
  /-- R93. -/
  | farGrantHingeCap
  /-- R125. The current the comparator sees as it rises, in mA, positive into the cell. -/
  | overcurrentTrip (c : Cell) (current : Int)
  /-- R126. The current the comparator sees as it falls, in mA. -/
  | tripRearm (c : Cell) (current : Int)
  /-- R167. -/
  | retryTimerExpiry (c : Cell)
  /-- R170. -/
  | dieSuspendReasonChange
  /-- R130, R131. The voltage now at the input connector, in mV. -/
  | comparatorRawChange (vbus : Int)
  /-- R131. -/
  | attachFilterExpiry (k : Comparator)
  /-- R134. -/
  | qualificationExpiry
  /-- R147. The raw level the switch now gives, true for active. -/
  | foldRawChange (f : FoldSense) (active : Bool)
  /-- R147. -/
  | hingeFilterExpiry (f : FoldSense)
  /-- R149. -/
  | settleTimerExpiry
  /-- R155. -/
  | startupSampleExpiry
  /-- R192. -/
  | recordCompletion
  /-- R204. -/
  | supervisorExpiry
  /-- R197: a write transaction with no data bytes. -/
  | emptyWrite
  /-- R198. All the bytes of the write transaction. -/
  | badRequestFrame (bytes : List Byte)
  /-- R198. -/
  | unknownRequest (kind tag : Byte) (body : List Byte)
  /-- R198. -/
  | lengthError (kind tag : Byte) (body : List Byte)
  /-- R200. How many bytes the host reads. -/
  | readReply (count : Nat)
  /-- R208. -/
  | identify (tag : Byte)
  /-- R208. -/
  | status (tag : Byte)
  /-- R209. -/
  | measure (tag sect : Byte)
  /-- R209. -/
  | cell (tag cell sect : Byte)
  /-- R109. -/
  | allocation (tag : Byte)
  /-- R175. -/
  | faults (tag sect : Byte)
  /-- R140. -/
  | inputLimit (tag : Byte) (ilim vfloor : Word)
  /-- R142: INPUT-SUSPEND with function READ, or with a function value that has no code (log 20). -/
  | inputSuspendRead (tag func : Byte)
  /-- R142. -/
  | inputSuspendSuspend (tag : Byte)
  /-- R142. -/
  | inputSuspendResume (tag : Byte)
  /-- R78. -/
  | ceiling (tag target : Byte) (value : Word)
  /-- R181. -/
  | inhibitSelect (tag target mask : Byte)
  /-- R182. -/
  | inhibitSet (tag target mask : Byte)
  /-- R182. -/
  | inhibitClear (tag target mask : Byte)
  /-- R183: INHIBIT with function TEST, or with a function value that has no code (log 20). -/
  | inhibitTest (tag func target mask : Byte)
  /-- R184. -/
  | inhibitEmptySelect (tag target mask : Byte)
  /-- R172. -/
  | faultClear (tag : Byte) (mask : Word)
  /-- R77. -/
  | chargeRestart (tag target : Byte)
  /-- R31. -/
  | gaugeSeed (tag target : Byte)
  /-- R100: BALANCE with function READ, or with a function value that has no code (log 20). -/
  | balanceRead (tag func : Byte)
  /-- R100. -/
  | balanceEnable (tag : Byte)
  /-- R100. -/
  | balanceDisable (tag : Byte)
  /-- R100. -/
  | balanceCancel (tag : Byte)
  /-- R210. -/
  | tableRead (tag id offset count : Byte)
  /-- R211, with the final flag clear. -/
  | tableWrite (tag id offset flags : Byte) (words : List Word)
  /-- R47, R211, with the final flag set. -/
  | tableWriteFinal (tag id offset flags : Byte) (words : List Word)
  /-- R191. -/
  | store (tag : Byte) (mask : Word)
  /-- R195. -/
  | load (tag : Byte) (mask : Word)
  /-- R193. -/
  | storeCancel (tag : Byte)
  /-- R203. -/
  | noticeFetch (tag : Byte)
  /-- R202: NOTICE-MASK with function READ, or with a function value that has no code (log 20). -/
  | noticeMaskRead (tag func : Byte) (enabled : Word)
  /-- R202. -/
  | noticeMaskWrite (tag : Byte) (enabled : Word)
  /-- R206. -/
  | softReset (tag : Byte)
  deriving DecidableEq, Repr

end Sys2Proof
end

