-- ==== Sys2Proof/Machine/Arith.lean ====
section
/-! DEFINITION. Machine/Arith.lean: the arithmetic of R1, and reading and writing a pair of cells or a round of channels. -/

namespace Sys2Proof.Machine

/-- Clamped to lo..hi (R1). -/
def clamp (lo hi x : Int) : Int := if x < lo then lo else if hi < x then hi else x

/-- Division truncated toward zero (R1). -/
def divTrunc (a b : Int) : Int := a.tdiv b

/-- Division, floor (R1). -/
def divFloor (a b : Int) : Int := a.fdiv b

/-- Division rounded half away from zero, for a positive divisor (R1). -/
def divHalfAway (a b : Int) : Int :=
  if 0 ≤ a then (2 * a + b).fdiv (2 * b) else -((2 * -a + b).fdiv (2 * b))

/-- Rounded down to a multiple of a positive step (R1, R44). -/
def downTo (step x : Int) : Int := x.fdiv step * step

/-- Rounded up to a multiple of a positive step (R1). -/
def upTo (step x : Int) : Int := -downTo step (-x)

/-- A count that stops at a bound. -/
def countUpTo (bound n : Nat) : Nat := if n < bound then n + 1 else bound

end Sys2Proof.Machine

namespace Sys2Proof

/-- The item of one cell. -/
def PerCell.get {α : Type} (p : PerCell α) : Cell → α
  | .near => p.near
  | .far => p.far

/-- The pair with one cell's item replaced. -/
def PerCell.set {α : Type} (p : PerCell α) (c : Cell) (v : α) : PerCell α :=
  match c with
  | .near => { p with near := v }
  | .far => { p with far := v }

/-- The same item for both cells. -/
def PerCell.both {α : Type} (v : α) : PerCell α := ⟨v, v⟩

/-- Both items changed alike. -/
def PerCell.map {α β : Type} (f : α → β) (p : PerCell α) : PerCell β := ⟨f p.near, f p.far⟩

/-- The twelve items changed alike. -/
def PerChannel.map {α β : Type} (f : α → β) (p : PerChannel α) : PerChannel β where
  vbus := f p.vbus
  ibus := f p.ibus
  vsys := f p.vsys
  iload := f p.iload
  vcn := f p.vcn
  icn := f p.icn
  vcf := f p.vcf
  icf := f p.icf
  vfn := f p.vfn
  tn := f p.tn
  tf := f p.tf
  tdie := f p.tdie

/-- The same item for every channel. -/
def PerChannel.all {α : Type} (v : α) : PerChannel α :=
  ⟨v, v, v, v, v, v, v, v, v, v, v, v⟩

/-- The items in conversion order (R9). -/
def PerChannel.toList {α : Type} (p : PerChannel α) : List α :=
  [p.vbus, p.ibus, p.vsys, p.iload, p.vcn, p.icn, p.vcf, p.icf, p.vfn, p.tn, p.tf, p.tdie]

end Sys2Proof
end

