-- ==== Sys2Proof/Machine/Tables.lean ====
section
/-! DEFINITION. Machine/Tables.lean: the tables as the manual lists their words (R212), the range, step and default of every word (R13, R22, R28, R40, R43, R45, R157, R165, R190), the adjustment of a word brought in (R44, R190) and the checks of a profile and of the band table (R48, R49). -/

namespace Sys2Proof.Machine

/-- The words of a table in force or of a pending copy, in the order of R212, as the numbers they stand for. -/
abbrev Words := List Int

/-- The word at an offset. -/
def Words.at (w : Words) (n : Nat) : Int := w.getD n 0

/-- The step and the range of one word. -/
structure Field where
  step : Int
  lo : Int
  hi : Int
  deriving DecidableEq, Repr

/-- A word brought in is rounded down to its step, then clamped to its range (R44, R190). -/
def Field.adjust (f : Field) (x : Int) : Int := clamp f.lo f.hi (downTo f.step x)

/-- The number a 16-bit word stands for: two's complement where the range includes negative values
(R212). -/
def Field.read (f : Field) (w : Word) : Int := if f.lo < 0 then w.toInt else w.toNat

/-- The adjusted numbers of the words a request brings in from an offset on. -/
def adjustWords (fields : List Field) (offset : Nat) (words : List Word) : List Int :=
  ((fields.drop offset).zip words).map fun (f, w) => f.adjust (f.read w)

/-- Whether an adjustment changes any of the words. -/
def anyAdjusted (fields : List Field) (offset : Nat) (words : List Word) : Bool :=
  ((fields.drop offset).zip words).any fun (f, w) => f.adjust (f.read w) != f.read w

/-- The table with the given words written from an offset on. -/
def Words.splice (old : Words) (offset : Nat) (new : List Int) : Words :=
  old.take offset ++ new ++ old.drop (offset + new.length)

/-- Whether a write of n words from an offset on covers the word at i. -/
def covers (offset n i : Nat) : Bool := decide (offset ≤ i) && decide (i < offset + n)

/-! ### Profiles -/

/-- R40. -/
def profileFields : List Field :=
  [⟨10, 3800, 4500⟩, ⟨1, 25, 500⟩, ⟨1, 2500, 3500⟩, ⟨1, 25, 500⟩, ⟨1, 50, 300⟩, ⟨1, 1, 5⟩]
    ++ List.replicate 5 ⟨25, 100, 5000⟩ ++ List.replicate 5 ⟨1, 3000, 4500⟩
    ++ [⟨1, 1, 120⟩, ⟨1, 30, 720⟩]

namespace Profile
def vfull (w : Words) : Int := w.at 0
def iterm (w : Words) : Int := w.at 1
def vpre (w : Words) : Int := w.at 2
def ipre (w : Words) : Int := w.at 3
def vrech (w : Words) : Int := w.at 4
def nstage (w : Words) : Nat := (w.at 5).toNat
/-- ICHG of stage k, 1..5. -/
def ichg (w : Words) (k : Nat) : Int := w.at (5 + k)
/-- VSTEP of stage k, 1..5. -/
def vstep (w : Words) (k : Nat) : Int := w.at (10 + k)
/-- PRE_LIMIT in ms (R57). -/
def preLimitMs (w : Words) : Int := w.at 16 * 60000
/-- FAST_LIMIT in ms (R57). -/
def fastLimitMs (w : Words) : Int := w.at 17 * 60000
/-- The stages in use, 1..NSTAGE (R41). -/
def stages (w : Words) : List Nat := (List.range (nstage w)).map (· + 1)
end Profile

/-- The default profile of a build (R45). -/
def defaultProfile (vmax imax : Int) : Words :=
  let vfull := downTo 10 (min 4400 vmax)
  [vfull, 100, 3000, 150, 100, 3,
   min 3000 imax, min 2000 imax, min 1200 imax, min 1200 imax, min 1200 imax,
   3900, 4150, vfull, vfull, vfull, 30, 300]

/-- Each number is strictly below the next. -/
def rising : List Int → Bool
  | a :: b :: rest => decide (a < b) && rising (b :: rest)
  | _ => true

/-- No number is above the one before it. -/
def notRising : List Int → Bool
  | a :: b :: rest => decide (b ≤ a) && notRising (b :: rest)
  | _ => true

/-- The number of the first of a list of checks that fails, counted from n; 0 when none does. -/
def firstFailing : Nat → List Bool → Nat
  | _, [] => 0
  | n, ok :: rest => if ok then firstFailing (n + 1) rest else n

/-- The seven checks of a profile, in order (R48). -/
def profileChecks (vmax imax : Int) (w : Words) : List Bool :=
  let n := Profile.nstage w
  [rising (Profile.vpre w :: (Profile.stages w).map (Profile.vstep w)),
   decide (Profile.vstep w n = Profile.vfull w),
   decide (Profile.vfull w ≤ vmax),
   notRising ((Profile.stages w).map (Profile.ichg w)),
   decide (Profile.ichg w 1 ≤ imax),
   decide (Profile.ipre w ≤ Profile.ichg w 1),
   decide (Profile.iterm w < Profile.ichg w n)]

/-- The first check of R48 that fails, 0 when every check passes. -/
def profileCheck (vmax imax : Int) (w : Words) : Nat := firstFailing 1 (profileChecks vmax imax w)

/-! ### The band table -/

/-- R43. -/
def bandFields : List Field :=
  ⟨1, 0, 50⟩ :: (List.replicate 6 [⟨1, -400, 1200⟩, ⟨1, 0, 100⟩, ⟨1, 0, 300⟩]).flatten

namespace Bands
def hyst (w : Words) : Int := w.at 0
/-- T_hi of band i, 1..6. -/
def tHi (w : Words) (i : Nat) : Int := w.at (3 * i - 2)
/-- pct of a band; 0 for band 0 (R58). -/
def pct (w : Words) (b : Nat) : Int := if b = 0 then 0 else w.at (3 * b - 1)
/-- voff of a band; 0 for band 0 (R58). -/
def voff (w : Words) (b : Nat) : Int := if b = 0 then 0 else w.at (3 * b)
end Bands

/-- R43. -/
def defaultBands : Words :=
  [20, 0, 0, 0, 100, 30, 100, 200, 70, 0, 450, 100, 0, 500, 50, 150, 1200, 0, 0]

/-- The first check of R49 that fails, 0 when both pass. -/
def bandsCheck (w : Words) : Nat :=
  firstFailing 1
    [rising ([1, 2, 3, 4, 5].map (Bands.tHi w)),
     [1, 2, 3, 4, 5, 6].any fun b => decide (0 < Bands.pct w b)]

/-! ### LIMITS -/

/-- R190. -/
def limitsFields : List Field :=
  [⟨25, 100, 3000⟩, ⟨50, 4200, 12000⟩, ⟨1, 50, 1000⟩, ⟨1, 700, 980⟩, ⟨1, 0, 500⟩, ⟨10, 20, 500⟩,
   ⟨1, 0, 255⟩, ⟨1, 0, 3000⟩, ⟨1, 0, 2000⟩, ⟨1, 20, 1000⟩, ⟨1, 100, 3000⟩, ⟨1, 10, 200⟩,
   ⟨1, 5, 200⟩]

/-- R190. -/
def defaultLimits : Words := [500, 4500, 150, 900, 100, 100, 30, 500, 300, 120, 1000, 40, 20]

namespace Limits
def ilimDefault (w : Words) : Int := w.at 0
def vfloorDefault (w : Words) : Int := w.at 1
def qualMs (w : Words) : Nat := (w.at 2).toNat
def eff (w : Words) : Int := w.at 3
def margin (w : Words) : Int := w.at 4
def roundMs (w : Words) : Nat := (w.at 5).toNat
/-- In seconds. -/
def hostTimeout (w : Words) : Nat := (w.at 6).toNat
def hingeCap (w : Words) : Int := w.at 7
def hngSettle (w : Words) : Nat := (w.at 8).toNat
def rfMax (w : Words) : Int := w.at 9
def flexCap (w : Words) : Int := w.at 10
def xwin (w : Words) : Int := w.at 11
def rampMs (w : Words) : Nat := (w.at 12).toNat
/-- The offset of HINGE_CAP. -/
def hingeCapOffset : Nat := 7
end Limits

/-- ILIM as it is adjusted (R139). -/
def ilimField : Field := ⟨25, 100, 3000⟩

/-- VFLOOR as it is adjusted (R139). -/
def vfloorField : Field := ⟨50, 4200, 12000⟩

/-! ### BALANCE -/

/-- R190, R108. XFER_STOP is bounded by the XFER_START given. -/
def balanceFields (start : Int) : List Field :=
  [⟨1, 0, 16⟩, ⟨1, 0, 200⟩, ⟨1, 0, 1⟩, ⟨1, 50, 500⟩, ⟨1, 10, start - 20⟩, ⟨1, 100, 1000⟩,
   ⟨1, 50, 1500⟩, ⟨1, 50, 2000⟩, ⟨1, 0, 3000⟩]

/-- R190. -/
def defaultBalance : Words := [4, 20, 1, 100, 30, 300, 300, 500, 300]

namespace Balance
def gain (w : Words) : Int := w.at 0
def deadband (w : Words) : Int := w.at 1
def xferEn (w : Words) : Bool := w.at 2 != 0
def xferStart (w : Words) : Int := w.at 3
def xferStop (w : Words) : Int := w.at 4
def xferI (w : Words) : Int := w.at 5
def xferLoadMax (w : Words) : Int := w.at 6
def xferMax (w : Words) : Int := w.at 7
def xferCool (w : Words) : Nat := (w.at 8).toNat
end Balance

/-- The XFER_START that is in force once the words are in: the written one, adjusted, or the old one
(R108). -/
def balanceStart (old : Words) (offset : Nat) (words : List Word) : Int :=
  if covers offset words.length 3 then
    (adjustWords (balanceFields 0) offset words).getD (3 - offset) 0
  else Balance.xferStart old

/-- BALANCE with words brought in: XFER_STOP is clamped against the new XFER_START, and lowered with it
when it is not among the words (R108). The flag says whether an adjustment acted. -/
def bringBalance (old : Words) (offset : Nat) (words : List Word) : Words × Bool :=
  let start := balanceStart old offset words
  let fields := balanceFields start
  let new := old.splice offset (adjustWords fields offset words)
  let clamped := anyAdjusted fields offset words
  if covers offset words.length 3 && decide (start - 20 < Balance.xferStop new) then
    (new.splice 4 [start - 20], true)
  else (new, clamped)

/-! ### PROTECT -/

/-- R157, R165. The lower bound of VOV is the greater of 4300 and VMAX + 50. The class words run from
the kind's minimum class to LATCH, and SYS-UV is fixed at REPORT (R156). -/
def protectFields (vmax : Int) : List Field :=
  [⟨1, max 4300 (vmax + 50), 4700⟩, ⟨1, 2500, 3200⟩, ⟨1, 500, 800⟩, ⟨1, 100, 10000⟩]
    ++ List.replicate 8 ⟨1, 1, 2⟩ ++ List.replicate 2 ⟨1, 0, 2⟩ ++ List.replicate 2 ⟨1, 1, 2⟩
    ++ [⟨1, 0, 0⟩]

/-- R156, R157. -/
def defaultProtect : Words := [4550, 2800, 600, 1000, 2, 2, 1, 1, 2, 2, 1, 1, 1, 1, 1, 1, 0]

namespace Protect
def vov (w : Words) : Int := w.at 0
def vuv (w : Words) : Int := w.at 1
def tot (w : Words) : Int := w.at 2
def retryMs (w : Words) : Nat := (w.at 3).toNat
/-- The class word of the kind with this number: 0 REPORT, 1 RESUME, 2 LATCH (R165). -/
def classOf (w : Words) (kind : Nat) : Int := w.at (4 + kind)
end Protect

/-! ### CALIBRATION -/

/-- R13. -/
def calFields : List Field :=
  (List.replicate 12 [⟨1, -128, 127⟩, ⟨1, -8, 7⟩, ⟨1, -8, 7⟩]).flatten

/-- R13. -/
def defaultCal : Words := List.replicate 36 0

/-! ### GAUGE -/

/-- The least CAP of a cell (R22). -/
def capLo (design : Int) : Int := divTrunc (design * 800) 1000

/-- The greatest CAP of a cell (R22). -/
def capHi (design : Int) : Int := divTrunc (design * 1100) 1000

/-- R22, R28. -/
def gaugeFields (dcapN dcapF : Int) : List Field :=
  [⟨1, capLo dcapN, capHi dcapN⟩, ⟨1, capLo dcapF, capHi dcapF⟩] ++ List.replicate 11 ⟨1, 2500, 4500⟩

/-- The default OCV table (R28). -/
def defaultOcv : Words := [3300, 3560, 3640, 3700, 3750, 3800, 3870, 3950, 4050, 4170, 4300]

end Sys2Proof.Machine

namespace Sys2Proof

/-- The design capacity of a cell (R188). -/
def Factory.dcap (f : Factory) : Cell → Int
  | .near => f.dcapN
  | .far => f.dcapF

/-- The highest stage current of a cell (R188). -/
def Factory.imax (f : Factory) : Cell → Int
  | .near => f.imaxN
  | .far => f.imaxF

/-- The overcurrent trip level of a path (R188). -/
def Factory.itrip (f : Factory) : Cell → Int
  | .near => f.itripN
  | .far => f.itripF

end Sys2Proof
end

