-- ==== Sys2Proof/Machine/Records.lean ====
section
/-! DEFINITION. Machine/Records.lean: the records that the blocks hold, as plain data (R9, R21, R39, R57, R83, R99, R111, R129, R146, R158, R178, R189, R191, R201), and what one block has handed to another. -/

namespace Sys2Proof.Machine

/-! ### Measurement unit -/

/-- R9. -/
structure ChannelRecord where
  raw : Int
  value : Int
  age : Nat
  deriving DecidableEq, Repr

/-- The published set (R7). -/
structure MeasSet where
  dt : Nat
  value : PerChannel Int
  age : PerChannel Nat
  rflex : Int
  flexValid : Bool
  deriving DecidableEq, Repr

/-- R4, R8, R9, R15. -/
structure MeasUnit where
  /-- Tenths of a millisecond left; none while stopped. -/
  roundTimer : Option Nat
  /-- The Δt of the round in flight. -/
  inFlight : Option Nat
  /-- The Δt of the latest set, 0 before the first (R18). -/
  setDt : Nat
  chan : PerChannel ChannelRecord
  rflex : Int
  flexValid : Bool
  deriving DecidableEq, Repr

/-! ### Charge counter -/

/-- R30. -/
inductive SeedPending where
  | none | powerOn | requested
  deriving DecidableEq, Repr

/-- R21. -/
inductive Learning where
  | idle | tracking
  deriving DecidableEq, Repr

/-- What the record notes of its latest seed (R29). -/
structure SeedNote where
  voltage : Int
  s : Int
  /-- The default table of R28 was used. -/
  usedDefault : Bool
  deriving DecidableEq, Repr

/-- R21, R27, R29. -/
structure CounterRecord where
  q : Int
  residue : Int
  cap : Int
  seed : SeedPending
  learning : Learning
  a : Int
  lastWhole : Int
  note : Option SeedNote
  deriving DecidableEq, Repr

/-! ### Profile and band tables -/

/-- R39: the two copies of a table and its edit state. -/
structure Copies where
  active : Words
  pending : Words
  editing : Bool
  deriving DecidableEq, Repr

/-- The tables in force (R39, R189). The CAP words of GAUGE are the counters' CAP. -/
structure Tables where
  profile : PerCell Copies
  bands : Copies
  limits : Words
  balance : Words
  protect : Words
  cal : Words
  ocv : Words
  deriving DecidableEq, Repr

/-! ### Sequencer -/

/-- R57. -/
inductive SeqState where
  | absent | idle | precharge | fast | taper | full | paused | expired
  deriving DecidableEq, Repr

/-- R57. -/
inductive FullReason where
  | none | taper | ceiling
  deriving DecidableEq, Repr

/-- R62: the set of pause reasons. -/
structure PauseReasons where
  inhibit : Bool
  band : Bool
  fault : Bool
  deriving DecidableEq, Repr

/-- R57, R80. -/
structure SeqRecord where
  state : SeqState
  k : Nat
  full : FullReason
  band : Nat
  reasons : PauseReasons
  adv : Nat
  term : Nat
  /-- Pre-timer elapsed, in ms. -/
  pre : Int
  /-- Fast-timer elapsed, in ms. -/
  fast : Int
  demand : Int
  ceiling : Int
  /-- The band temperature of the last set. -/
  bandT : Option Int
  coupled : Bool
  lastGrant : Int
  deriving DecidableEq, Repr

/-- What a sequencer holds of what it has taken: the active copies of its two tables as of the latest
promotion event, which the sets are handled against (R51, log 41), and the record of VC as the latest set
left it, which a grant and a promotion event are handled with (R51, R75). -/
structure SeqSeen where
  prof : Words
  bands : Words
  vc : Int
  age : Nat
  deriving DecidableEq, Repr

/-! ### Allocator -/

/-- R83. -/
inductive Mode where
  | hold | charge | idleSupply | supplement | battery | transfer
  deriving DecidableEq, Repr

/-- An ordered state with its value (R111). -/
inductive Order where
  | openPath
  | diode
  | limit (x : Int)
  | regulate (x : Int)
  | closed
  deriving DecidableEq, Repr

/-- R83. -/
structure FrameRecord where
  number : Nat
  mode : Mode
  ilim : Int
  sd : Int
  vbus : Int
  vsys : Int
  iload : Int
  soc : PerCell Int
  demand : PerCell Int
  capOut : Int
  headroom : Int
  capped : PerCell Int
  wN : Int
  grant : PerCell Int
  limit : Option (Cell × Int)
  order : PerCell Order
  transferActive : Bool
  deriving DecidableEq, Repr

/-- R99, in the order of the codes of R212. -/
inductive EndCause where
  | none | done | load | full | limit | donor | band | input | hinge | fault | inhibit | sys | host
  | stale
  deriving DecidableEq, Repr

/-- R99. -/
structure TransferRecord where
  active : Bool
  donor : Option Cell
  receiver : Option Cell
  current : Int
  moved : Int
  frames : Nat
  lastEnd : EndCause
  cooldown : Nat
  deriving DecidableEq, Repr

/-- Chapter 05: the frame record, the transfer record and the host transfer enable. -/
structure Allocator where
  frame : FrameRecord
  transfer : TransferRecord
  enable : Bool
  deriving DecidableEq, Repr

/-! ### Cell path -/

/-- R111. -/
inductive Restriction where
  | none | blockCharge | blockDischarge | blockAll
  deriving DecidableEq, Repr

/-- An effective state with its value (R112). -/
inductive Effective where
  | openPath
  | diode
  | limit (x : Int)
  | regulate (x : Int)
  | closed
  | ramp
  | chargeOnly (x : Int)
  deriving DecidableEq, Repr

/-- R111. The target is `Effective.target`. -/
structure PathRecord where
  ordered : Order
  restriction : Restriction
  eff : Effective
  /-- Tenths of a millisecond left; none outside RAMP. -/
  ramp : Option Nat
  armed : Bool
  deriving DecidableEq, Repr

/-- The in-force actions on a path: whether any is a BLOCK-CHARGE, a BLOCK-DISCHARGE, a BLOCK-ALL
(R114, R169). -/
structure Blocks where
  charge : Bool
  discharge : Bool
  all : Bool
  deriving DecidableEq, Repr

/-! ### Filtered inputs, input stage, hinge monitor -/

/-- A raw level, its filtered level and the filter timer in tenths of a millisecond (R131, R147). -/
structure Filtered where
  raw : Bool
  level : Bool
  timer : Option Nat
  deriving DecidableEq, Repr

/-- R129. -/
inductive InputState where
  | detached | qualifying | active | suspended | blocked
  deriving DecidableEq, Repr

/-- R135. -/
structure SuspendReasons where
  host : Bool
  die : Bool
  deriving DecidableEq, Repr

/-- R129. -/
structure InputStage where
  state : InputState
  present : Filtered
  ov : Filtered
  /-- Tenths of a millisecond left; none outside QUALIFYING. -/
  qual : Option Nat
  reasons : SuspendReasons
  ilim : Int
  vfloor : Int
  sd : Int
  deriving DecidableEq, Repr

/-- R146, in the order of the codes of R212. -/
inductive Position where
  | moving | closed | opened | conflict
  deriving DecidableEq, Repr

/-- R146. The position is `Hinge.position`. -/
structure Hinge where
  foldA : Filtered
  foldB : Filtered
  settled : Bool
  /-- Tenths of a millisecond left; none while stopped. -/
  settle : Option Nat
  /-- The start-up timer of R155. -/
  startup : Option Nat
  conflicts : Nat
  deriving DecidableEq, Repr

/-! ### Protection -/

/-- R156, in the order of the kinds' numbers. -/
inductive FaultKind where
  | nOv | fOv | nUv | fUv | nOc | fOc | nOt | fOt | nNtc | fNtc | fSense | dieOt | sysUv
  deriving DecidableEq, Repr

/-- R158. The class is the PROTECT word, and the retry timers stand beside the records. -/
structure FaultRecord where
  active : Bool
  latched : Bool
  inForce : Bool
  count : Nat
  lastFrame : Nat
  deriving DecidableEq, Repr

/-- One thing for each fault kind. -/
structure PerFault (α : Type) where
  nOv : α
  fOv : α
  nUv : α
  fUv : α
  nOc : α
  fOc : α
  nOt : α
  fOt : α
  nNtc : α
  fNtc : α
  fSense : α
  dieOt : α
  sysUv : α
  deriving DecidableEq, Repr

/-- Chapter 09. -/
structure Protection where
  record : PerFault FaultRecord
  /-- Tenths of a millisecond left on the retry timers of N-OC and F-OC. -/
  retry : PerCell (Option Nat)
  deriving DecidableEq, Repr

/-! ### Table store -/

/-- The stored records (R189), ids 1..8. -/
inductive RecordId where
  | profileN | profileF | bands | limits | balance | protect | calibration | gauge
  deriving DecidableEq, Repr

/-- R189. -/
structure Slot where
  id : Word
  count : Word
  words : List Word
  check : Word
  deriving DecidableEq, Repr

/-- One thing for each stored record. -/
structure PerRecord (α : Type) where
  profileN : α
  profileF : α
  bands : α
  limits : α
  balance : α
  protect : α
  calibration : α
  gauge : α
  deriving DecidableEq, Repr

/-- R191: what WRITING holds. -/
structure Writing where
  inFlight : RecordId
  /-- Still to be written, ascending. -/
  todo : List RecordId
  completed : List RecordId
  cancel : Bool
  snapshot : List (RecordId × List Word)
  deriving DecidableEq, Repr

/-- R191. -/
inductive StoreState where
  | idle
  | writing (w : Writing)
  deriving DecidableEq, Repr

/-- Chapter 11. -/
structure Store where
  slots : PerRecord Slot
  state : StoreState
  /-- The defaulted set of the latest power-on load (R196, R208). -/
  defaulted : Word
  deriving DecidableEq, Repr

/-! ### Message link -/

/-- R206, R207. -/
inductive PowerupCause where
  | powerOn | softReset
  deriving DecidableEq, Repr

/-- R52. -/
inductive ProfileSource where
  | write | load
  deriving DecidableEq, Repr

/-- The payload of a notice; the kind is `Payload.kind` (R201, R212). -/
inductive Payload where
  | powerup (cause : PowerupCause)
  | input (after before : InputState) (reasons : SuspendReasons) (ilim sd : Int)
  | charge (c : Cell) (state : SeqState) (k : Nat) (full : FullReason) (band : Nat)
    (reasons : PauseReasons)
  | fault (kinds : Word)
  | transfer (cause : EndCause) (donor receiver : Option Cell) (moved : Int) (frames : Nat)
  | hinge (position : Position) (settled foldA foldB : Bool) (conflicts : Nat)
  | profile (table : Nat) (promoted : Bool) (check : Nat) (source : ProfileSource)
  | store (completed : Word) (cancelled : Bool)
  | defaulted (ids : Word)
  | reverted
  | learn (c : Cell) (accepted : Bool) (l cap : Int)
  deriving DecidableEq, Repr

/-- R201. -/
structure Entry where
  payload : Payload
  count : Nat
  frame : Nat
  deriving DecidableEq, Repr

/-- Chapter 12. -/
structure Link where
  /-- The held reply; none in IDLE (R199, R200). -/
  reply : Option (List Byte)
  /-- Oldest first. -/
  queue : List Entry
  /-- Bit n is kind n (R202). -/
  enabled : Word
  /-- Tenths of a millisecond left; none when STOPPED (R204). -/
  supervisor : Option Nat
  /-- The bytes given to the latest read transaction (log 18). -/
  lastRead : List Byte
  deriving DecidableEq, Repr

/-! ### Handed on and not yet taken (log 2) -/

/-- R137. -/
inductive InputSignal where
  | granted | withdrawn
  deriving DecidableEq, Repr

/-- A promotion event, with the copy that the promotion made active (R51). -/
inductive Promoted where
  | profile (active : Words)
  | bands (active : Words)
  deriving DecidableEq, Repr

/-- What one block has handed to another and that block has not yet taken, oldest first. -/
structure Handed where
  /-- R8. -/
  counterSet : PerCell (List MeasSet)
  /-- R8. -/
  seqSet : PerCell (List MeasSet)
  /-- R8. -/
  protSet : List MeasSet
  /-- R8. -/
  inputSet : List MeasSet
  /-- R8. -/
  allocSet : List MeasSet
  /-- R34: full marks sent to the counter. -/
  fullMark : PerCell Nat
  /-- R137. -/
  seqSignal : PerCell (List InputSignal)
  /-- R137. -/
  pathSignal : PerCell (List InputSignal)
  /-- R137: the allocator's; a grant is for the transfer operation (R105), a withdrawal for the frame
  record (R93). -/
  allocSignal : List InputSignal
  /-- R179: whether the set is non-empty after the change. -/
  seqInhibit : PerCell (List Bool)
  /-- R124: the restriction after the change. -/
  seqFault : PerCell (List Restriction)
  /-- R51. -/
  seqPromotion : PerCell (List Promoted)
  /-- R169: the blocks in force after the change. -/
  pathBlocks : PerCell (List Blocks)
  /-- R170: whether DIE is present after the change. -/
  die : List Bool
  /-- R98. -/
  pathOrder : PerCell (List Order)
  /-- R151: hinge events for the far path. -/
  pathHinge : Nat
  /-- R151: hinge events for the frame record. -/
  grantHinge : Nat
  /-- R105: the ending events but input granted. -/
  transfer : List TransferEvent
  deriving DecidableEq, Repr

/-- R196, R197: where the part stands in its power-on. -/
inductive Phase where
  /-- From power-on reset until the power-on load. -/
  | reset
  /-- The load is made and not yet complete. -/
  | loaded
  | running
  deriving DecidableEq, Repr

end Sys2Proof.Machine
end

