-- ==== Sys2Proof/Machine/PowerOn.lean ====
section
/-! DEFINITION. Machine/PowerOn.lean: the power-on values of every block (R18, R38, R81, R110, R128, R144, R155, R176, R186, R196, R207). Where the power-on load is still to bring a value in, the default stands until then (log 10). -/

namespace Sys2Proof.Machine

/-- R18. -/
def powerOnMeas : MeasUnit where
  roundTimer := none
  inFlight := none
  setDt := 0
  chan := PerChannel.all ⟨0, 0, 255⟩
  rflex := 0
  flexValid := false

/-- R38. -/
def powerOnCounter (design : Int) : CounterRecord where
  q := 0
  residue := 0
  cap := design
  seed := .powerOn
  learning := .idle
  a := 0
  lastWhole := 0
  note := none

/-- R39: both copies alike and the edit state CLEAN (R55). -/
def cleanCopies (w : Words) : Copies := ⟨w, w, false⟩

/-- R55, R38, R176, R190: every table at its defaults. -/
def powerOnTables (f : Factory) : Tables where
  profile := ⟨cleanCopies (defaultProfile f.vmax f.imaxN), cleanCopies (defaultProfile f.vmax f.imaxF)⟩
  bands := cleanCopies defaultBands
  limits := defaultLimits
  balance := defaultBalance
  protect := defaultProtect
  cal := defaultCal
  ocv := defaultOcv

/-- R81. -/
def powerOnSeq (bootHold : Bool) : SeqRecord where
  state := .idle
  k := 0
  full := .none
  band := 0
  reasons := ⟨bootHold, true, false⟩
  adv := 0
  term := 0
  pre := 0
  fast := 0
  demand := 0
  ceiling := 1000
  bandT := none
  coupled := false
  lastGrant := 0

/-- R55, R81: the sequencers start with the active copies in place, and no set has been handled (R18). -/
def seenAtStart (t : Tables) : PerCell SeqSeen :=
  ⟨⟨t.profile.near.active, t.bands.active, 0, 255⟩, ⟨t.profile.far.active, t.bands.active, 0, 255⟩⟩

/-- R110. -/
def powerOnAlloc : Allocator where
  frame :=
    { number := 0, mode := .battery, ilim := 0, sd := 0, vbus := 0, vsys := 0, iload := 0
      soc := ⟨0, 0⟩, demand := ⟨0, 0⟩, capOut := 0, headroom := 0, capped := ⟨0, 0⟩, wN := 500
      grant := ⟨0, 0⟩, limit := none, order := ⟨.diode, .diode⟩, transferActive := false }
  transfer :=
    { active := false, donor := none, receiver := none, current := 0, moved := 0, frames := 0
      lastEnd := .none, cooldown := 0 }
  enable := true

/-- R128. -/
def powerOnPath : PathRecord where
  ordered := .diode
  restriction := .none
  eff := .diode
  ramp := none
  armed := true

/-- A filtered input at power-on: the filtered level low, the timer stopped, the raw level as the
outside makes it (R144, R155). -/
def powerOnFiltered (raw : Bool) : Filtered := ⟨raw, false, none⟩

/-- R144. -/
def powerOnInput (presentRaw ovRaw : Bool) : InputStage where
  state := .detached
  present := powerOnFiltered presentRaw
  ov := powerOnFiltered ovRaw
  qual := none
  reasons := ⟨false, false⟩
  ilim := Limits.ilimDefault defaultLimits
  vfloor := Limits.vfloorDefault defaultLimits
  sd := 1000

/-- R155. -/
def powerOnHinge (rawA rawB : Bool) : Hinge where
  foldA := powerOnFiltered rawA
  foldB := powerOnFiltered rawB
  settled := false
  settle := none
  startup := none
  conflicts := 0

/-- R176. -/
def clearFault : FaultRecord := ⟨false, false, false, 0, 0⟩

/-- R176. -/
def powerOnProtection : Protection where
  record := ⟨clearFault, clearFault, clearFault, clearFault, clearFault, clearFault, clearFault,
    clearFault, clearFault, clearFault, clearFault, clearFault, clearFault⟩
  retry := ⟨none, none⟩

/-- R186: reason 0 is BOOT. -/
def powerOnInhibit (bootHold : Bool) : PerCell Byte :=
  PerCell.both (if bootHold then 0x01 else 0x00)

/-- Every notice kind, 1..12 (R207). -/
def allKinds : Word := 0x1FFE

/-- R207. -/
def powerOnLink : Link where
  reply := none
  queue := []
  enabled := allKinds
  supervisor := none
  lastRead := []

/-- Nothing waits anywhere. -/
def nothingHanded : Handed where
  counterSet := ⟨[], []⟩
  seqSet := ⟨[], []⟩
  protSet := []
  inputSet := []
  allocSet := []
  fullMark := ⟨0, 0⟩
  seqSignal := ⟨[], []⟩
  pathSignal := ⟨[], []⟩
  allocSignal := []
  seqInhibit := ⟨[], []⟩
  seqFault := ⟨[], []⟩
  seqPromotion := ⟨[], []⟩
  pathBlocks := ⟨[], []⟩
  die := []
  pathOrder := ⟨[], []⟩
  pathHinge := 0
  grantHinge := 0
  transfer := []

/-- The number of words of a stored record (R189). -/
def RecordId.length : RecordId → Nat
  | .profileN => 18
  | .profileF => 18
  | .bands => 19
  | .limits => 13
  | .balance => 9
  | .protect => 17
  | .calibration => 36
  | .gauge => 13

/-- "Memory that has been erased reads as all ones in every word" (R189). -/
def erasedSlot (r : RecordId) : Slot where
  id := 0xFFFF
  count := 0xFFFF
  words := List.replicate r.length 0xFFFF
  check := 0xFFFF

/-- Every slot erased: "a part that has never been stored to" (R189). -/
def erasedSlots : PerRecord Slot where
  profileN := erasedSlot .profileN
  profileF := erasedSlot .profileF
  bands := erasedSlot .bands
  limits := erasedSlot .limits
  balance := erasedSlot .balance
  protect := erasedSlot .protect
  calibration := erasedSlot .calibration
  gauge := erasedSlot .gauge

end Sys2Proof.Machine
end

