-- ==== Sys2Proof/Machine/State.lean ====
section
/-! DEFINITION. Machine/State.lean: the whole state of the part and its queue of commands, the reasons a step can stop, and the part right after power-on reset. -/

namespace Sys2Proof.Machine

/-- The part. Every field is plain data. -/
structure State where
  /-- R188. No command changes it. -/
  factory : Factory
  phase : Phase
  meas : MeasUnit
  counter : PerCell CounterRecord
  tables : Tables
  seq : PerCell SeqRecord
  /-- R51, R75: what each sequencer holds of the promotions and the set it has taken. -/
  seen : PerCell SeqSeen
  alloc : Allocator
  path : PerCell PathRecord
  input : InputStage
  hinge : Hinge
  prot : Protection
  /-- R178: bit n is reason n. -/
  inhibit : PerCell Byte
  store : Store
  link : Link
  handed : Handed
  /-- The counter that the free values of Config are applied to (log 5). -/
  fresh : Nat
  /-- The commands that wait, first in, first out (log 1). -/
  pending : List Instr
  deriving DecidableEq, Repr

/-- No rule of the manual stops the part, so there is no fault: nothing raises one. -/
inductive Fault where
  deriving DecidableEq, Repr

/-- The reasons for which a command has no meaning. -/
inductive Refusal where
  /-- Raised by Dispatch.lean alone, for a row whose meaning is not written yet. Safe: nothing follows
  about what the part does. -/
  | notModelled (mnemonic : String)
  deriving DecidableEq, Repr

/-- The part right after power-on reset, before the power-on load: the standard build (R188), never
stored to (R189), with no adapter and neither fold switch closed (log 13), and no command waiting. -/
def State.reset : State where
  factory := Factory.standard
  phase := .reset
  meas := powerOnMeas
  counter := ⟨powerOnCounter Factory.standard.dcapN, powerOnCounter Factory.standard.dcapF⟩
  tables := powerOnTables Factory.standard
  seq := PerCell.both (powerOnSeq Factory.standard.bootHold)
  seen := seenAtStart (powerOnTables Factory.standard)
  alloc := powerOnAlloc
  path := PerCell.both powerOnPath
  input := powerOnInput false false
  hinge := powerOnHinge false false
  prot := powerOnProtection
  inhibit := powerOnInhibit Factory.standard.bootHold
  store := ⟨erasedSlots, .idle, 0⟩
  link := powerOnLink
  handed := nothingHanded
  fresh := 0
  pending := []

end Sys2Proof.Machine
end

