-- ==== Sys2Proof/Machine/Flags.lean ====
section
/-! DEFINITION. Machine/Flags.lean: the sets, flags and codes of the part: usability of a channel, pause and suspend reasons, fault kinds and their records, record ids, notice kinds, and the codes of R212. -/

namespace Sys2Proof.Machine

/-- A channel is usable while its age is 0, 1 or 2 (R12). -/
def usable (age : Nat) : Bool := decide (age ≤ 2)

/-- The set with one member, as a bit field (R212). -/
def bit (n : Nat) : Word := 1#16 <<< n

/-- A set of numbers as a bit field (R212). -/
def setOf (ns : List Nat) : Word := ns.foldl (fun w n => w ||| bit n) 0

/-! ### Pause and suspend reasons -/

/-- The set is not empty. -/
def PauseReasons.any (r : PauseReasons) : Bool := r.inhibit || r.band || r.fault

/-- R212: bit 0 INHIBIT, bit 1 BAND, bit 2 FAULT. -/
def PauseReasons.code (r : PauseReasons) : Byte :=
  (if r.inhibit then 1 else 0) ||| (if r.band then 2 else 0) ||| (if r.fault then 4 else 0)

/-- The set is not empty. -/
def SuspendReasons.any (r : SuspendReasons) : Bool := r.host || r.die

/-- R212: bit 0 HOST, bit 1 DIE. -/
def SuspendReasons.code (r : SuspendReasons) : Byte :=
  (if r.host then 1 else 0) ||| (if r.die then 2 else 0)

/-- PRECHARGE, FAST and TAPER (R57). -/
def SeqState.charging : SeqState → Bool
  | .precharge => true
  | .fast => true
  | .taper => true
  | .absent => false
  | .idle => false
  | .full => false
  | .paused => false
  | .expired => false

/-- The restriction contains a charge block (R62, R89). -/
def Restriction.blocksCharge : Restriction → Bool
  | .blockCharge => true
  | .blockAll => true
  | .none => false
  | .blockDischarge => false

/-! ### Fault kinds -/

/-- The kind's number (R156). -/
def FaultKind.num : FaultKind → Nat
  | .nOv => 0
  | .fOv => 1
  | .nUv => 2
  | .fUv => 3
  | .nOc => 4
  | .fOc => 5
  | .nOt => 6
  | .fOt => 7
  | .nNtc => 8
  | .fNtc => 9
  | .fSense => 10
  | .dieOt => 11
  | .sysUv => 12

/-- Every kind once, in the order of the numbers. -/
def FaultKind.all : List FaultKind :=
  [.nOv, .fOv, .nUv, .fUv, .nOc, .fOc, .nOt, .fOt, .nNtc, .fNtc, .fSense, .dieOt, .sysUv]

/-- The overcurrent kind of a path (R156). -/
def FaultKind.oc : Cell → FaultKind
  | .near => .nOc
  | .far => .fOc

/-- The item of one kind. -/
def PerFault.get {α : Type} (p : PerFault α) : FaultKind → α
  | .nOv => p.nOv
  | .fOv => p.fOv
  | .nUv => p.nUv
  | .fUv => p.fUv
  | .nOc => p.nOc
  | .fOc => p.fOc
  | .nOt => p.nOt
  | .fOt => p.fOt
  | .nNtc => p.nNtc
  | .fNtc => p.fNtc
  | .fSense => p.fSense
  | .dieOt => p.dieOt
  | .sysUv => p.sysUv

/-- One item for each kind, from the kind. -/
def PerFault.ofKind {α : Type} (f : FaultKind → α) : PerFault α where
  nOv := f .nOv
  fOv := f .fOv
  nUv := f .nUv
  fUv := f .fUv
  nOc := f .nOc
  fOc := f .fOc
  nOt := f .nOt
  fOt := f .fOt
  nNtc := f .nNtc
  fNtc := f .fNtc
  fSense := f .fSense
  dieOt := f .dieOt
  sysUv := f .sysUv

/-- The items with one kind's item replaced. -/
def PerFault.set {α : Type} (p : PerFault α) (k : FaultKind) (v : α) : PerFault α :=
  PerFault.ofKind fun j => if j = k then v else p.get j

/-- The kinds for which a test holds, as a set of 16 bits (R212). -/
def faultSet (p : FaultKind → Bool) : Word := setOf ((FaultKind.all.filter p).map FaultKind.num)

/-- R163: whether the kind's action is in force, by its class word: 0 REPORT never, 1 RESUME while the
condition is active, 2 LATCH while latched. -/
def judge (cls : Int) (active latched : Bool) : Bool :=
  if cls = 1 then active else if cls = 2 then latched else false

/-- The in-force actions on a path (R169). -/
def blocksOn (p : PerFault FaultRecord) : Cell → Blocks
  | .near =>
    { charge := p.nOv.inForce || p.nNtc.inForce
      discharge := p.nUv.inForce
      all := p.nOc.inForce || p.nOt.inForce }
  | .far =>
    { charge := p.fOv.inForce || p.fNtc.inForce || p.fSense.inForce
      discharge := p.fUv.inForce
      all := p.fOc.inForce || p.fOt.inForce }

/-- The kinds that act on a path (R169). -/
def pathKinds : Cell → List FaultKind
  | .near => [.nOv, .nUv, .nOc, .nOt, .nNtc]
  | .far => [.fOv, .fUv, .fOc, .fOt, .fNtc, .fSense]

/-- R114. -/
def Blocks.restriction (b : Blocks) : Restriction :=
  if b.all || (b.charge && b.discharge) then .blockAll
  else if b.charge then .blockCharge
  else if b.discharge then .blockDischarge
  else .none

/-! ### Record ids -/

/-- The id of a stored record (R189). -/
def RecordId.num : RecordId → Nat
  | .profileN => 1
  | .profileF => 2
  | .bands => 3
  | .limits => 4
  | .balance => 5
  | .protect => 6
  | .calibration => 7
  | .gauge => 8

/-- Every stored record, in ascending id. -/
def RecordId.all : List RecordId :=
  [.profileN, .profileF, .bands, .limits, .balance, .protect, .calibration, .gauge]

/-- The item of one record. -/
def PerRecord.get {α : Type} (p : PerRecord α) : RecordId → α
  | .profileN => p.profileN
  | .profileF => p.profileF
  | .bands => p.bands
  | .limits => p.limits
  | .balance => p.balance
  | .protect => p.protect
  | .calibration => p.calibration
  | .gauge => p.gauge

/-- The items with one record's item replaced. -/
def PerRecord.set {α : Type} (p : PerRecord α) (r : RecordId) (v : α) : PerRecord α :=
  match r with
  | .profileN => { p with profileN := v }
  | .profileF => { p with profileF := v }
  | .bands => { p with bands := v }
  | .limits => { p with limits := v }
  | .balance => { p with balance := v }
  | .protect => { p with protect := v }
  | .calibration => { p with calibration := v }
  | .gauge => { p with gauge := v }

/-- A list of record ids as a set of 16 bits (R212). -/
def recordSet (rs : List RecordId) : Word := setOf (rs.map RecordId.num)

/-! ### Notices -/

/-- The number of the notice kind (R212, Notice payloads). -/
def Payload.kind : Payload → Nat
  | .powerup _ => 1
  | .input _ _ _ _ _ => 2
  | .charge .near _ _ _ _ _ => 3
  | .charge .far _ _ _ _ _ => 4
  | .fault _ => 5
  | .transfer _ _ _ _ _ => 6
  | .hinge _ _ _ _ _ => 7
  | .profile _ _ _ _ => 8
  | .store _ _ => 9
  | .defaulted _ => 10
  | .reverted => 11
  | .learn _ _ _ _ => 12

/-- The payload of an entry that a notice of its kind merges into: the union for FAULT and DEFAULTED,
otherwise the new payload (R201). -/
def Payload.merge (old new : Payload) : Payload :=
  match old, new with
  | .fault a, .fault b => .fault (a ||| b)
  | .defaulted a, .defaulted b => .defaulted (a ||| b)
  | _, p => p

/-! ### Codes of R212 -/

/-- Statuses (R212). -/
inductive Status where
  | ok | clamped | accept | abort | part | range | readOnly | busy | refused | badArg | length
  | frame | unknown
  deriving DecidableEq, Repr

/-- R212. -/
def Status.code : Status → Byte
  | .ok => 0x00
  | .clamped => 0x01
  | .accept => 0x02
  | .abort => 0x03
  | .part => 0x04
  | .range => 0x10
  | .readOnly => 0x11
  | .busy => 0x12
  | .refused => 0x13
  | .badArg => 0x14
  | .length => 0x15
  | .frame => 0x20
  | .unknown => 0x21

/-- A flag as a byte. -/
def flagCode (b : Bool) : Byte := if b then 1 else 0

/-- R212. -/
def cellCode : Cell → Byte
  | .near => 0
  | .far => 1

/-- R212: 0xFF for none. -/
def cellCodeOr : Option Cell → Byte
  | none => 0xFF
  | some c => cellCode c

/-- R212. -/
def InputState.code : InputState → Byte
  | .detached => 0
  | .qualifying => 1
  | .active => 2
  | .suspended => 3
  | .blocked => 4

/-- R212. -/
def SeqState.code : SeqState → Byte
  | .absent => 0
  | .idle => 1
  | .precharge => 2
  | .fast => 3
  | .taper => 4
  | .full => 5
  | .paused => 6
  | .expired => 7

/-- R212. -/
def FullReason.code : FullReason → Byte
  | .none => 0
  | .taper => 1
  | .ceiling => 2

/-- R212. -/
def Mode.code : Mode → Byte
  | .hold => 0
  | .charge => 1
  | .idleSupply => 2
  | .supplement => 3
  | .battery => 4
  | .transfer => 5

/-- R212. -/
def Order.code : Order → Byte
  | .openPath => 0
  | .diode => 1
  | .limit _ => 2
  | .regulate _ => 3
  | .closed => 4

/-- The value of an order that has one (R111). -/
def Order.value : Order → Option Int
  | .limit x => some x
  | .regulate x => some x
  | .openPath => none
  | .diode => none
  | .closed => none

/-- R212. -/
def Effective.code : Effective → Byte
  | .openPath => 0
  | .diode => 1
  | .limit _ => 2
  | .regulate _ => 3
  | .closed => 4
  | .ramp => 5
  | .chargeOnly _ => 6

/-- The target of an effective state (R112). -/
def Effective.target : Effective → Int
  | .openPath => 0
  | .diode => 0
  | .limit x => x
  | .regulate x => x
  | .closed => 0
  | .ramp => 500
  | .chargeOnly x => x

/-- How a switch conducts in one direction: a path switch (R112), or the input switch from the input to the
rail (R132). -/
inductive Conduct where
  | blocked
  /-- Whenever the rail falls below the cell voltage, without a limit short of the trip. -/
  | diode
  /-- As `diode`, held to x. -/
  | diodeHeld (x : Int)
  /-- Regulated to x. -/
  | regulated (x : Int)
  /-- Through the low resistance of the switch. -/
  | resistance
  /-- Conducts, the current held at or below x. -/
  | held (x : Int)
  deriving DecidableEq, Repr

/-- How an effective state conducts from the cell toward the rail (R112, column Discharge). -/
def Effective.discharge : Effective → Conduct
  | .openPath => .blocked
  | .diode => .diode
  | .limit x => .diodeHeld x
  | .regulate _ => .diode
  | .chargeOnly _ => .blocked
  | .closed => .resistance
  | .ramp => .held 500

/-- How an effective state conducts from the rail into the cell (R112, column Charge). -/
def Effective.charge : Effective → Conduct
  | .openPath => .blocked
  | .diode => .blocked
  | .limit _ => .blocked
  | .regulate x => .regulated x
  | .chargeOnly x => .regulated x
  | .closed => .resistance
  | .ramp => .held 500

/-- R212. -/
def Restriction.code : Restriction → Byte
  | .none => 0
  | .blockCharge => 1
  | .blockDischarge => 2
  | .blockAll => 3

/-- R212. -/
def Position.code : Position → Byte
  | .moving => 0
  | .closed => 1
  | .opened => 2
  | .conflict => 3

/-- R212. -/
def Learning.code : Learning → Byte
  | .idle => 0
  | .tracking => 1

/-- R212. -/
def SeedPending.code : SeedPending → Byte
  | .none => 0
  | .powerOn => 1
  | .requested => 2

/-- R212. -/
def EndCause.code : EndCause → Byte
  | .none => 0
  | .done => 1
  | .load => 2
  | .full => 3
  | .limit => 4
  | .donor => 5
  | .band => 6
  | .input => 7
  | .hinge => 8
  | .fault => 9
  | .inhibit => 10
  | .sys => 11
  | .host => 12
  | .stale => 13

/-- R212. -/
def PowerupCause.code : PowerupCause → Byte
  | .powerOn => 0
  | .softReset => 1

/-- R212. -/
def ProfileSource.code : ProfileSource → Byte
  | .write => 0
  | .load => 1

end Sys2Proof.Machine
end

