-- ==== Sys2Proof/Machine/Operands.lean ====
section
/-! DEFINITION. Machine/Operands.lean: what the operand bytes of the requests name (R212): targets, cells, masks, table ids. -/

namespace Sys2Proof.Machine

/-- The cells that a target names, near first; none where the value has no code (R212). -/
def targetOf (b : Byte) : Option (List Cell) :=
  if b = 0 then some [.near]
  else if b = 1 then some [.far]
  else if b = 2 then some [.near, .far]
  else none

/-- The cell that a cell value names (R209, R212). -/
def cellOf (b : Byte) : Option Cell :=
  if b = 0 then some .near else if b = 1 then some .far else none

/-- The bits of a mask that is a set of 16 bits. -/
def hasBit (mask : Word) (n : Nat) : Bool := mask.getLsbD n

/-- The mask names nothing outside lo..hi. -/
def maskWithin (lo hi : Nat) (mask : Word) : Bool :=
  (List.range 16).all fun n => !hasBit mask n || (decide (lo ≤ n) && decide (n ≤ hi))

/-- The stored records that a mask names, ascending (R191, R195). -/
def recordsIn (mask : Word) : List RecordId := RecordId.all.filter fun r => hasBit mask r.num

/-- What a table id names (R53, R188, R189). -/
inductive TableId where
  | record (r : RecordId)
  | factory
  | activeProfile (c : Cell)
  | activeBands
  deriving DecidableEq, Repr

/-- The table of an id; none for an id that names none (R210, R211). -/
def tableOf (id : Byte) : Option TableId :=
  if id = 9 then some .factory
  else if id = 11 then some (.activeProfile .near)
  else if id = 12 then some (.activeProfile .far)
  else if id = 13 then some .activeBands
  else (RecordId.all.find? fun r => r.num == id.toNat).map .record

end Sys2Proof.Machine
end

