-- ==== Sys2Proof/Machine/Ops.lean ====
section
/-! DEFINITION. Machine/Ops.lean: the operations that several blocks share: the setters of State, queuing a notice (R201), the state of charge (R27), the effective state of a path (R115 to R117), the end of a transfer (R106), the moves of the input stage (R133 to R137) and the judging of a fault's action (R163, R169, R170). -/

namespace Sys2Proof.Machine

/-- The outcome type of every meaning. -/
abbrev Result := Host.Outcome State Fault Refusal

/-! ### Setters -/

def State.setPhase (s : State) (v : Phase) : State := { s with phase := v }
def State.setMeas (s : State) (v : MeasUnit) : State := { s with meas := v }
def State.setCounter (s : State) (c : Cell) (v : CounterRecord) : State :=
  { s with counter := s.counter.set c v }
def State.setTables (s : State) (v : Tables) : State := { s with tables := v }
def State.setSeq (s : State) (c : Cell) (v : SeqRecord) : State := { s with seq := s.seq.set c v }
def State.setSeen (s : State) (v : PerCell SeqSeen) : State := { s with seen := v }
def State.setAlloc (s : State) (v : Allocator) : State := { s with alloc := v }
def State.setPath (s : State) (c : Cell) (v : PathRecord) : State :=
  { s with path := s.path.set c v }
def State.setInput (s : State) (v : InputStage) : State := { s with input := v }
def State.setHinge (s : State) (v : Hinge) : State := { s with hinge := v }
def State.setProt (s : State) (v : Protection) : State := { s with prot := v }
def State.setInhibit (s : State) (c : Cell) (v : Byte) : State :=
  { s with inhibit := s.inhibit.set c v }
def State.setStore (s : State) (v : Store) : State := { s with store := v }
def State.setLink (s : State) (v : Link) : State := { s with link := v }
def State.setHanded (s : State) (v : Handed) : State := { s with handed := v }
def State.setFresh (s : State) (v : Nat) : State := { s with fresh := v }

/-! ### Notices -/

/-- The queue with a notice added at the end, or merged into the entry of its kind (R201). -/
def enqueue (p : Payload) (frame : Nat) : List Entry → List Entry
  | [] => [⟨p, 1, frame⟩]
  | e :: es =>
    if e.payload.kind = p.kind then
      { e with payload := e.payload.merge p, count := countUpTo 255 e.count } :: es
    else e :: enqueue p frame es

/-- The link takes a notice; a notice of a masked kind is not queued (R201). -/
def Link.notify (l : Link) (frame : Nat) (p : Payload) : Link :=
  if hasBit l.enabled p.kind then { l with queue := enqueue p frame l.queue } else l

/-- A block queues a notice. The frame number recorded is that of the latest frame taken (R109, R201). -/
def State.notify (s : State) (p : Payload) : State :=
  s.setLink (s.link.notify s.alloc.frame.number p)

/-- The attention line is asserted while the queue holds an entry (R201). -/
def State.attention (s : State) : Bool := !s.link.queue.isEmpty

/-! ### Readings shared by the blocks -/

/-- SOC, in per-mille (R27). -/
def CounterRecord.soc (r : CounterRecord) : Int := divFloor r.q r.cap

/-- SOC of a cell as it stands (R27). -/
def State.soc (s : State) (c : Cell) : Int := (s.counter.get c).soc

/-- The input stage is ACTIVE. -/
def State.inputActive (s : State) : Bool := s.input.state == .active

/-- How the input switch conducts from the input to the rail: in ACTIVE the input current is held at or below
ILIM in force, in every other state the switch is off (R132). It is read from the state and from ILIM as they
stand, so a new ILIM takes hold as it comes into force. -/
def InputStage.switch (r : InputStage) : Conduct :=
  match r.state with
  | .active => .held r.ilim
  | .detached => .blocked
  | .qualifying => .blocked
  | .suspended => .blocked
  | .blocked => .blocked

/-- How the input switch conducts, as the part stands (R132). -/
def State.inputSwitch (s : State) : Conduct := s.input.switch

/-- The input switch conducts in ACTIVE alone (R132). -/
def State.inputSwitchOn (s : State) : Bool := s.inputActive

/-- The position that two filtered levels give (R148). -/
def Hinge.position (h : Hinge) : Position :=
  match h.foldA.level, h.foldB.level with
  | true, false => .closed
  | false, true => .opened
  | false, false => .moving
  | true, true => .conflict

/-- Tenths of a millisecond. -/
def tenths (ms : Nat) : Nat := 10 * ms

/-- A running timer has run out: its expiry takes place. One that is stopped, or that has been restarted
and has time left, does not expire (R168, R204, log 3). -/
def timeUp (t : Option Nat) : Bool := t == some 0

/-! ### Cell paths -/

/-- min(x, HINGE_CAP), rounded down to 25 (R93, R95, R115, R122). -/
def hingeCapped (cap x : Int) : Int := downTo 25 (min x cap)

/-- The hinge condition of the far path (R115). -/
def hingeLimits (c : Cell) (settled : Bool) : Bool := c == .far && !settled

/-- Step 1: the order conditioned on the input and the hinge (R115). -/
def conditioned (c : Cell) (active settled : Bool) (cap : Int) : Order → Order
  | .openPath => .openPath
  | .diode => .diode
  | .closed => if active || hingeLimits c settled then .diode else .closed
  | .limit x =>
    if hingeLimits c settled then
      if hingeCapped cap x = 0 then .diode else .limit (hingeCapped cap x)
    else .limit x
  | .regulate x =>
    if hingeLimits c settled then
      if hingeCapped cap x = 0 then .diode else .regulate (hingeCapped cap x)
    else .regulate x

/-- Step 2: the conditioned order combined with the restriction (R116). -/
def restricted : Order → Restriction → Effective
  | .openPath, _ => .openPath
  | .diode, .none => .diode
  | .diode, .blockCharge => .diode
  | .diode, .blockDischarge => .openPath
  | .diode, .blockAll => .openPath
  | .limit x, .none => .limit x
  | .limit x, .blockCharge => .limit x
  | .limit _, .blockDischarge => .openPath
  | .limit _, .blockAll => .openPath
  | .regulate x, .none => .regulate x
  | .regulate _, .blockCharge => .diode
  | .regulate x, .blockDischarge => .chargeOnly x
  | .regulate _, .blockAll => .openPath
  | .closed, .none => .closed
  | .closed, .blockCharge => .diode
  | .closed, .blockDischarge => .openPath
  | .closed, .blockAll => .openPath

/-- Step 3: RAMP in place of CLOSED, and any other result as it stands (R117, R119). A path that becomes
OPEN is armed (R126). -/
def PathRecord.take (p : PathRecord) (ramp : Nat) (result : Effective) : PathRecord :=
  if result = .closed then
    if p.eff = .closed ∨ p.eff = .ramp then p else { p with eff := .ramp, ramp := some ramp }
  else { p with eff := result, ramp := none, armed := p.armed || result == .openPath }

/-- The result of R116 for a path as everything stands. -/
def State.pathResult (s : State) (c : Cell) : Effective :=
  restricted
    (conditioned c s.inputActive s.hinge.settled (Limits.hingeCap s.tables.limits)
      (s.path.get c).ordered)
    (s.path.get c).restriction

/-- The effective state is recomputed (R115 to R117). -/
def State.recompute (s : State) (c : Cell) : State :=
  s.setPath c ((s.path.get c).take (tenths (Limits.rampMs s.tables.limits)) (s.pathResult c))

/-- The path takes an order and is recomputed. -/
def State.orderPath (s : State) (c : Cell) (o : Order) : State :=
  (s.setPath c { s.path.get c with ordered := o }).recompute c

/-! ### The transfer -/

/-- What every end of a transfer does: state NONE, the cause, the cooldown and the notice (R106). -/
def State.endTransfer (s : State) (cause : EndCause) : State :=
  let t := s.alloc.transfer
  (s.setAlloc
    { s.alloc with
      transfer :=
        { t with active := false, lastEnd := cause, cooldown := Balance.xferCool s.tables.balance } }
    ).notify (.transfer cause t.donor t.receiver t.moved t.frames)

/-- The receiver's path is ordered DIODE (R106, R123). -/
def State.receiverDiode (s : State) (receiver : Option Cell) : State :=
  match receiver with
  | some c => s.orderPath c .diode
  | none => s

/-- The frame record after an end of a transfer on an event: transfer active is no, and the receiver's order
is the DIODE that its path is ordered (R83, R106, log 42). -/
def FrameRecord.endTransfer (f : FrameRecord) (receiver : Option Cell) : FrameRecord :=
  match receiver with
  | some c => { f with transferActive := false, order := f.order.set c .diode }
  | none => { f with transferActive := false }

/-- An end on an event between frames: the receiver's path is ordered DIODE and the frame record changes
with it (R83, R106, R123). With no transfer in progress nothing happens (R105). -/
def State.endTransferOnEvent (s : State) (cause : EndCause) : State :=
  if s.alloc.transfer.active then
    let e := s.endTransfer cause
    (e.setAlloc { e.alloc with frame := e.alloc.frame.endTransfer s.alloc.transfer.receiver }
      ).receiverDiode s.alloc.transfer.receiver
  else s

/-! ### The input stage -/

/-- A signal of the input stage is handed to the sequencers, the paths and the allocator (R137). -/
def Handed.signal (h : Handed) (x : InputSignal) : Handed :=
  { h with
    seqSignal := h.seqSignal.map (· ++ [x])
    pathSignal := h.pathSignal.map (· ++ [x])
    allocSignal := h.allocSignal ++ [x] }

/-- The record as the state is entered: the qualification timer runs in QUALIFYING alone, and SD is 1000
on entry to ACTIVE (R133, R134, R136). -/
def InputStage.enter (r : InputStage) (qual : Nat) (new : InputState) : InputStage :=
  { r with
    state := new
    qual := if new = .qualifying then some qual else none
    sd := if new = .active then 1000 else r.sd }

/-- The input stage moves to a state: the notice (R143) and the signals (R137) of a change; no change
does nothing. -/
def State.moveInput (s : State) (new : InputState) : State :=
  let old := s.input.state
  if new = old then s
  else
    let r := s.input.enter (tenths (Limits.qualMs s.tables.limits)) new
    let t := (s.setInput r).notify (.input new old r.reasons r.ilim r.sd)
    t.setHanded
      (if new = .active then t.handed.signal .granted
       else if old = .active then t.handed.signal .withdrawn
       else t.handed)

/-- The set of suspend reasons becomes the one given, and the state follows (R136). -/
def State.setReasons (s : State) (new : SuspendReasons) : State :=
  let t := s.setInput { s.input with reasons := new }
  match s.input.state with
  | .active => if !s.input.reasons.any && new.any then t.moveInput .suspended else t
  | .suspended => if s.input.reasons.any && !new.any then t.moveInput .active else t
  | .detached => t
  | .qualifying => t
  | .blocked => t

/-! ### Protection's actions -/

/-- After a change of fault records, every path whose in-force flags changed is handed its blocks, and
the input stage is handed DIE where that flag changed: one change for each receiver (R161, R169, R170). -/
def State.setFaults (s : State) (new : PerFault FaultRecord) : State :=
  let old := s.prot.record
  let changed (ks : List FaultKind) : Bool :=
    ks.any fun k => (old.get k).inForce != (new.get k).inForce
  let hand (c : Cell) (l : List Blocks) : List Blocks :=
    if changed (pathKinds c) then l ++ [blocksOn new c] else l
  (s.setProt { s.prot with record := new }).setHanded
    { s.handed with
      pathBlocks :=
        ⟨hand .near s.handed.pathBlocks.near, hand .far s.handed.pathBlocks.far⟩
      die := if changed [.dieOt] then s.handed.die ++ [new.dieOt.inForce] else s.handed.die }

/-- A record with its in-force flag judged under a class word (R163). -/
def FaultRecord.judged (r : FaultRecord) (cls : Int) : FaultRecord :=
  { r with inForce := judge cls r.active r.latched }

end Sys2Proof.Machine
end

