-- ==== Sys2Proof/Machine/Measure.lean ====
section
/-! DEFINITION. Machine/Measure.lean: the measurement unit (chapter 01): the round, the channel records, calibration and the flex estimate. -/

namespace Sys2Proof.Machine

/-- What the channel table says of a channel: its number, its range or valid range, and whether it is a
temperature channel (R9). -/
structure Channel where
  num : Nat
  lo : Int
  hi : Int
  temperature : Bool
  deriving DecidableEq, Repr

/-- The twelve channels (chapter 01, The twelve channels; R9, R10). -/
def channels : PerChannel Channel where
  vbus := ⟨0, 0, 20000, false⟩
  ibus := ⟨1, 0, 5000, false⟩
  vsys := ⟨2, 0, 6000, false⟩
  iload := ⟨3, 0, 8000, false⟩
  vcn := ⟨4, 0, 5000, false⟩
  icn := ⟨5, -8000, 8000, false⟩
  vcf := ⟨6, 0, 5000, false⟩
  icf := ⟨7, -8000, 8000, false⟩
  vfn := ⟨8, 0, 5000, false⟩
  tn := ⟨9, -400, 1200, true⟩
  tf := ⟨10, -400, 1200, true⟩
  tdie := ⟨11, -400, 1500, true⟩

/-- The gain factor F of a channel's triple (R14). -/
def gainFactor (cal : Words) (n : Nat) : Int := 10000 + 200 * cal.at (3 * n + 1) + 10 * cal.at (3 * n + 2)

/-- The rounded calibrated value, before the range is applied (R14). -/
def calibrated (cal : Words) (n : Nat) (raw : Int) : Int :=
  divHalfAway ((raw + cal.at (3 * n)) * gainFactor cal n) 10000

/-- R10. -/
def conversionValid (cal : Words) (ch : Channel) (v : Conversion) : Bool :=
  !v.saturated &&
    (!ch.temperature ||
      (decide (ch.lo ≤ calibrated cal ch.num v.code.toInt)
        && decide (calibrated cal ch.num v.code.toInt ≤ ch.hi)))

/-- The record of a channel after a round completion: R11 for a valid conversion, R12 for an invalid
one. -/
def ChannelRecord.complete (cal : Words) (ch : Channel) (v : Conversion) (r : ChannelRecord) :
    ChannelRecord :=
  if conversionValid cal ch v then
    ⟨v.code.toInt, clamp ch.lo ch.hi (calibrated cal ch.num v.code.toInt), 0⟩
  else ⟨v.code.toInt, r.value, countUpTo 255 r.age⟩

/-- The twelve records after a round completion (R7, step 1). -/
def completeAll (cal : Words) (v : PerChannel Conversion) (r : PerChannel ChannelRecord) :
    PerChannel ChannelRecord where
  vbus := r.vbus.complete cal channels.vbus v.vbus
  ibus := r.ibus.complete cal channels.ibus v.ibus
  vsys := r.vsys.complete cal channels.vsys v.vsys
  iload := r.iload.complete cal channels.iload v.iload
  vcn := r.vcn.complete cal channels.vcn v.vcn
  icn := r.icn.complete cal channels.icn v.icn
  vcf := r.vcf.complete cal channels.vcf v.vcf
  icf := r.icf.complete cal channels.icf v.icf
  vfn := r.vfn.complete cal channels.vfn v.vfn
  tn := r.tn.complete cal channels.tn v.tn
  tf := r.tf.complete cal channels.tf v.tf
  tdie := r.tdie.complete cal channels.tdie v.tdie

/-- The set is a flex sample (R15). -/
def flexSample (r : PerChannel ChannelRecord) : Bool :=
  usable r.vfn.age && usable r.vcf.age && usable r.icf.age
    && (decide (200 ≤ r.icf.value) || decide (r.icf.value ≤ -200))

/-- The instantaneous resistance r of a flex sample (R16). -/
def flexResistance (r : PerChannel ChannelRecord) : Int :=
  clamp 0 1000 (divTrunc ((r.vfn.value - r.vcf.value) * 1000) r.icf.value)

/-- The flex estimate taken from the records (R15, R17). -/
def MeasUnit.takeFlex (u : MeasUnit) : MeasUnit :=
  if flexSample u.chan then
    if u.flexValid then
      { u with rflex := u.rflex + divTrunc (flexResistance u.chan - u.rflex) 4 }
    else { u with rflex := flexResistance u.chan, flexValid := true }
  else u

/-- The set that a unit publishes with a Δt (R7). -/
def MeasUnit.published (u : MeasUnit) (dt : Nat) : MeasSet where
  dt := dt
  value := u.chan.map (·.value)
  age := u.chan.map (·.age)
  rflex := u.rflex
  flexValid := u.flexValid

/-- The set is handed to its seven consumers (R8). -/
def Handed.publish (h : Handed) (m : MeasSet) : Handed :=
  { h with
    counterSet := h.counterSet.map (· ++ [m])
    seqSet := h.seqSet.map (· ++ [m])
    protSet := h.protSet ++ [m]
    inputSet := h.inputSet ++ [m]
    allocSet := h.allocSet ++ [m] }

/-- The unit after a round with this Δt completes (R7). -/
def MeasUnit.complete (u : MeasUnit) (cal : Words) (dt : Nat) (v : PerChannel Conversion) : MeasUnit :=
  MeasUnit.takeFlex
    { u with inFlight := none, setDt := dt, chan := completeAll cal v u.chan }

/-- ROUND_TIMER_EXPIRY (R4): the timer restarts with the ROUND_MS in force, and the round that starts
carries it as its Δt. It comes about only when the timer has run out and no round is in flight (R6, log 24). -/
def execRoundTimerExpiry (s : State) : Result :=
  if timeUp s.meas.roundTimer && s.meas.inFlight.isNone then
    .next (s.setMeas
      { s.meas with
        roundTimer := some (tenths (Limits.roundMs s.tables.limits))
        inFlight := some (Limits.roundMs s.tables.limits) })
  else .next s

/-- ROUND_COMPLETION (R7): the records, the flex estimate, and the published set. It comes about only
with a round in flight (R6). -/
def execRoundCompletion (v : PerChannel Conversion) (s : State) : Result :=
  match s.meas.inFlight with
  | some dt =>
    let u := s.meas.complete s.tables.cal dt v
    .next ((s.setMeas u).setHanded (s.handed.publish (u.published dt)))
  | none => .next s


/-- VC of a cell in a set. -/
def MeasSet.vc (m : MeasSet) : Cell → Int
  | .near => m.value.vcn
  | .far => m.value.vcf

/-- The age of VC of a cell in a set. -/
def MeasSet.vcAge (m : MeasSet) : Cell → Nat
  | .near => m.age.vcn
  | .far => m.age.vcf

/-- VC of a cell is usable in a set. -/
def MeasSet.vcOk (m : MeasSet) (c : Cell) : Bool := usable (m.vcAge c)

/-- The current of a cell in a set, positive into the cell. -/
def MeasSet.current (m : MeasSet) : Cell → Int
  | .near => m.value.icn
  | .far => m.value.icf

/-- The current channel of a cell is usable in a set. -/
def MeasSet.currentOk (m : MeasSet) : Cell → Bool
  | .near => usable m.age.icn
  | .far => usable m.age.icf

/-- The own temperature of a cell in a set. -/
def MeasSet.temp (m : MeasSet) : Cell → Int
  | .near => m.value.tn
  | .far => m.value.tf

/-- The own temperature channel of a cell is usable in a set. -/
def MeasSet.tempOk (m : MeasSet) : Cell → Bool
  | .near => usable m.age.tn
  | .far => usable m.age.tf

/-- VC of a cell as the records hold it between sets (R8). -/
def State.vc (s : State) : Cell → ChannelRecord
  | .near => s.meas.chan.vcn
  | .far => s.meas.chan.vcf

end Sys2Proof.Machine
end

