-- ==== Sys2Proof/Machine/Sequencer.lean ====
section
/-! DEFINITION. Machine/Sequencer.lean: the charge sequencers (chapter 04): thresholds, entry evaluation, the six steps on a set, and the events. -/

namespace Sys2Proof.Machine

/-- What a sequencer reads besides its record (R59, R66): the tables, VC, the last grant, SOC and whether
the input is ACTIVE. -/
structure SeqEnv where
  prof : Words
  bands : Words
  vc : Int
  vcOk : Bool
  grant : Int
  soc : Int
  inputActive : Bool
  deriving DecidableEq, Repr

/-- What a sequencer reads between sets: the active tables and VC as they stand (R2, R8, R58, R66). The
allocator (R101) and the CELL request (R80) read the thresholds from the same tables. -/
def State.seqEnv (s : State) (c : Cell) : SeqEnv where
  prof := (s.tables.profile.get c).active
  bands := s.tables.bands.active
  vc := (s.vc c).value
  vcOk := usable (s.vc c).age
  grant := s.alloc.frame.grant.get c
  soc := s.soc c
  inputActive := s.inputActive

/-- What a sequencer reads on a grant of the input or a promotion event: VC is the one that the set it
handled last left (R51, R75). -/
def State.seqEnvHeld (s : State) (c : Cell) : SeqEnv :=
  { s.seqEnv c with vc := (s.seen.get c).vc, vcOk := usable (s.seen.get c).age }

/-- What a sequencer reads as it handles a set: VC comes from the set (R59), and the tables are those of the
promotions it has taken (R51, log 41). -/
def State.seqEnvOn (s : State) (c : Cell) (m : MeasSet) : SeqEnv :=
  { s.seqEnv c with
    prof := (s.seen.get c).prof, bands := (s.seen.get c).bands, vc := m.vc c, vcOk := m.vcOk c }

/-! ### Thresholds (R58) -/

namespace Seq

/-- pct of the band in force. -/
def pct (e : SeqEnv) (r : SeqRecord) : Int := Bands.pct e.bands r.band

/-- VFULL_eff. -/
def vfullEff (e : SeqEnv) (r : SeqRecord) : Int := Profile.vfull e.prof - Bands.voff e.bands r.band

/-- VSTEP_eff of stage i. -/
def vstepEff (e : SeqEnv) (r : SeqRecord) (i : Nat) : Int :=
  min (Profile.vstep e.prof i) (vfullEff e r)

/-- ICHG of a stage, scaled by the band, floored and rounded down to 25 (R58, R74). -/
def stageCurrent (e : SeqEnv) (r : SeqRecord) (k : Nat) : Int :=
  downTo 25 (divFloor (Profile.ichg e.prof k * pct e r) 100)

/-- The taper maximum. -/
def taperMax (e : SeqEnv) (r : SeqRecord) : Int := stageCurrent e r (Profile.nstage e.prof)

/-! ### States as they are entered -/

/-- ABSENT (R63). -/
def toAbsent (r : SeqRecord) : SeqRecord :=
  { r with
    state := .absent, k := 0, full := .none, adv := 0, term := 0, pre := 0, fast := 0, demand := 0 }

/-- IDLE (R63, R75). -/
def toIdle (r : SeqRecord) : SeqRecord :=
  { r with
    state := .idle, k := 0, full := .none, adv := 0, term := 0, pre := 0, fast := 0, demand := 0 }

/-- PAUSED: the timers keep their values (R64). -/
def toPaused (r : SeqRecord) : SeqRecord :=
  { r with state := .paused, k := 0, full := .none, adv := 0, term := 0, demand := 0 }

/-- FULL with its reason (R70, R71). -/
def toFull (why : FullReason) (r : SeqRecord) : SeqRecord :=
  { r with
    state := .full, k := 0, full := why, adv := 0, term := 0, pre := 0, fast := 0, demand := 0 }

/-- EXPIRED (R73). -/
def toExpired (r : SeqRecord) : SeqRecord :=
  { r with state := .expired, k := 0, full := .none, adv := 0, term := 0, demand := 0 }

/-- PRECHARGE at IPRE (R66, R74). -/
def toPrecharge (e : SeqEnv) (r : SeqRecord) : SeqRecord :=
  { r with
    state := .precharge, k := 0, full := .none, adv := 0, term := 0
    demand := downTo 25 (Profile.ipre e.prof) }

/-- FAST at a stage (R66, R68, R74). -/
def toFast (e : SeqEnv) (k : Nat) (r : SeqRecord) : SeqRecord :=
  { r with
    state := .fast, k := k, full := .none, adv := 0, term := 0, demand := stageCurrent e r k }

/-- TAPER: the initial demand is the smaller of the last grant and the taper maximum (R69). This and the
taper law (R70) are the reads of the last grant that the record notes (R80, log 40). -/
def toTaper (e : SeqEnv) (r : SeqRecord) : SeqRecord :=
  { r with
    state := .taper, k := 0, full := .none, adv := 0, term := 0
    demand := downTo 25 (min e.grant (taperMax e r))
    lastGrant := e.grant }

/-- The first stage in use whose end voltage lies above VC (R66). By check 2 of R48 the last one does
whenever VC lies below VFULL_eff; for a table that has not passed its checks the last stage stands in
(log 25). -/
def stageAt (e : SeqEnv) (r : SeqRecord) : Nat :=
  ((Profile.stages e.prof).find? fun k => decide (e.vc < vstepEff e r k)).getD
    (Profile.nstage e.prof)

/-- The voltage placement (R66). -/
def place (e : SeqEnv) (r : SeqRecord) : SeqRecord :=
  if e.vc < vfullEff e r then toFast e (stageAt e r) r else toTaper e r

/-- The entry evaluation, the timers kept (R66). -/
def entry (e : SeqEnv) (r : SeqRecord) : SeqRecord :=
  if !e.vcOk then toAbsent r
  else if r.reasons.any then toPaused r
  else if e.vc < Profile.vpre e.prof then toPrecharge e r
  else place e r

/-- The entry evaluation, the timers reset (R66). -/
def entryReset (e : SeqEnv) (r : SeqRecord) : SeqRecord := entry e { r with pre := 0, fast := 0 }

/-! ### Band (R60 to R62) -/

/-- The lowest band whose boundary lies above T, or band 6 (R61). -/
def plainBand (bands : Words) (t : Int) : Nat :=
  ([1, 2, 3, 4, 5].find? fun i => decide (t < Bands.tHi bands i)).getD 6

/-- T lies within the widened range of a band (R61). -/
def inWidened (bands : Words) (b : Nat) (t : Int) : Bool :=
  (b == 1 || decide (Bands.tHi bands (b - 1) - Bands.hyst bands ≤ t))
    && (b == 6 || decide (t < Bands.tHi bands b + Bands.hyst bands))

/-- The band after a set (R60, R61). -/
def newBand (bands : Words) (old : Nat) : Option Int → Nat
  | none => 0
  | some t => if old = 0 then plainBand bands t
    else if inWidened bands old t then old else plainBand bands t

/-- The BAND reason stands while the band is 0 or its pct is 0 (R62). -/
def bandBars (bands : Words) (b : Nat) : Bool := b == 0 || Bands.pct bands b == 0

/-- The BAND reason brought up to date (R62). -/
def updateBandReason (e : SeqEnv) (r : SeqRecord) : SeqRecord :=
  { r with reasons := { r.reasons with band := bandBars e.bands r.band } }

/-- Step 1 of a set (R59). -/
def bandStep (e : SeqEnv) (t : Option Int) (coupled : Bool) (r : SeqRecord) : SeqRecord :=
  updateBandReason e { r with band := newBand e.bands r.band t, bandT := t, coupled := coupled }

/-! ### The other steps of a set -/

/-- Step 2: presence (R63). -/
def presence (e : SeqEnv) (r : SeqRecord) : SeqRecord :=
  if !e.vcOk || decide (e.vc < 1500) then toAbsent r
  else if r.state = .absent ∧ 2000 ≤ e.vc then
    if e.inputActive then entryReset e (toIdle r) else toIdle r
  else r

/-- A change of the pause reasons from an old set: a reason that arises pauses a charging state, and the
last one to go resumes PAUSED (R64, R65). -/
def afterReasons (e : SeqEnv) (old : PauseReasons) (r : SeqRecord) : SeqRecord :=
  if r.state.charging && r.reasons.any then toPaused r
  else if r.state = .paused ∧ old.any ∧ !r.reasons.any then entry e r
  else r

/-- The advance of a timer on a set (R73). -/
def advance (e : SeqEnv) (r : SeqRecord) (dt : Int) : Int := if pct e r = 100 then dt else divTrunc dt 2

/-- The expiry of the timer of the state, when its elapsed value has reached its limit (R73). -/
def expireIfDue (e : SeqEnv) (r : SeqRecord) : SeqRecord :=
  match r.state with
  | .precharge =>
    if Profile.preLimitMs e.prof ≤ r.pre then
      toExpired { r with pre := Profile.preLimitMs e.prof }
    else r
  | .fast =>
    if Profile.fastLimitMs e.prof ≤ r.fast then
      toExpired { r with fast := Profile.fastLimitMs e.prof }
    else r
  | .taper =>
    if Profile.fastLimitMs e.prof ≤ r.fast then
      toExpired { r with fast := Profile.fastLimitMs e.prof }
    else r
  | .absent => r
  | .idle => r
  | .full => r
  | .paused => r
  | .expired => r

/-- Step 4: the timer of the state advances, and it may expire (R73). -/
def timerStep (e : SeqEnv) (dt : Int) (r : SeqRecord) : SeqRecord :=
  match r.state with
  | .precharge => expireIfDue e { r with pre := r.pre + advance e r dt }
  | .fast => expireIfDue e { r with fast := r.fast + advance e r dt }
  | .taper => expireIfDue e { r with fast := r.fast + advance e r dt }
  | .absent => r
  | .idle => r
  | .full => r
  | .paused => r
  | .expired => r

/-- The ceiling test holds (R71). -/
def ceilingMet (e : SeqEnv) (r : SeqRecord) : Bool :=
  r.state.charging && decide (r.ceiling < 1000) && decide (r.ceiling ≤ e.soc)

/-- FAST on a set (R68). -/
def fastStep (e : SeqEnv) (r : SeqRecord) : SeqRecord :=
  if vstepEff e r r.k ≤ e.vc then
    if r.adv + 1 < 2 then { r with adv := r.adv + 1 }
    else if r.k < Profile.nstage e.prof then toFast e (r.k + 1) r
    else toTaper e r
  else { r with adv := 0 }

/-- The taper law's adjustment (R70). -/
def taperAdjust (e : SeqEnv) (r : SeqRecord) : Int :=
  if vfullEff e r + 10 < e.vc then -100 else if e.vc < vfullEff e r - 20 then 50 else 0

/-- The demand the taper law gives; it reads the last grant (R70, log 40). -/
def taperLaw (e : SeqEnv) (r : SeqRecord) : Int :=
  downTo 25 (clamp 0 (taperMax e r) (e.grant + taperAdjust e r))

/-- The termination test is met (R70). -/
def taperDone (e : SeqEnv) (r : SeqRecord) : Bool :=
  decide (taperLaw e r ≤ Profile.iterm e.prof) && decide (vfullEff e r - 50 ≤ e.vc)

/-- TAPER on a set, and whether a full mark is sent (R70). -/
def taperStep (e : SeqEnv) (r : SeqRecord) : SeqRecord × Bool :=
  if taperDone e r then
    if r.term + 1 < 3 then
      ({ r with demand := taperLaw e r, lastGrant := e.grant, term := r.term + 1 }, false)
    else (toFull .taper { r with lastGrant := e.grant }, true)
  else ({ r with demand := taperLaw e r, lastGrant := e.grant, term := 0 }, false)

/-- The recharge test of FULL (R72). -/
def rechargeMet (e : SeqEnv) (r : SeqRecord) : Bool :=
  match r.full with
  | .taper => decide (e.vc < vfullEff e r - Profile.vrech e.prof)
  | .ceiling => decide (e.soc < r.ceiling - 20) || decide (r.ceiling = 1000)
  | .none => false

/-- Step 5: the ceiling stop, or the state's own transition; and whether a full mark is sent (R59). -/
def transition (e : SeqEnv) (r : SeqRecord) : SeqRecord × Bool :=
  if ceilingMet e r then (toFull .ceiling r, false)
  else
    match r.state with
    | .precharge => (if Profile.vpre e.prof + 100 ≤ e.vc then place e r else r, false)
    | .fast => (fastStep e r, false)
    | .taper => taperStep e r
    | .full => (if rechargeMet e r then entryReset e r else r, false)
    | .absent => (r, false)
    | .idle => (r, false)
    | .paused => (r, false)
    | .expired => (r, false)

/-- D as each state gives it; in TAPER the D of R69 or R70 stands (R74). -/
def demandOf (e : SeqEnv) (r : SeqRecord) : Int :=
  match r.state with
  | .precharge => downTo 25 (Profile.ipre e.prof)
  | .fast => stageCurrent e r r.k
  | .taper => r.demand
  | .absent => 0
  | .idle => 0
  | .full => 0
  | .paused => 0
  | .expired => 0

/-- Step 6 (R74). -/
def demandStep (e : SeqEnv) (r : SeqRecord) : SeqRecord := { r with demand := demandOf e r }

/-- The record after steps 1 to 3 of a set. -/
def settleState (e : SeqEnv) (t : Option Int) (coupled : Bool) (r : SeqRecord) : SeqRecord :=
  let r1 := bandStep e t coupled r
  let r2 := presence e r1
  if r2.state ≠ r1.state then r2 else afterReasons e r.reasons r2

/-- Steps 2 and 3 of a set leave the state as it was, so steps 4 and 5 are taken (R59). -/
def stateKept (e : SeqEnv) (t : Option Int) (coupled : Bool) (r : SeqRecord) : Bool :=
  (settleState e t coupled r).state == r.state

/-- The six steps on a set, and whether a full mark is sent (R59). -/
def takeSet (e : SeqEnv) (t : Option Int) (coupled : Bool) (dt : Int) (r : SeqRecord) :
    SeqRecord × Bool :=
  let r3 := settleState e t coupled r
  if stateKept e t coupled r then
    let r4 := timerStep e dt r3
    if r4.state ≠ r3.state then (demandStep e r4, false)
    else
      let r5 := transition e r4
      (demandStep e r5.1, r5.2)
  else (demandStep e r3, false)

/-- The set's handling takes the timer of the state to its limit (R73). -/
def expiresOn (e : SeqEnv) (t : Option Int) (coupled : Bool) (dt : Int) (r : SeqRecord) : Bool :=
  let r3 := settleState e t coupled r
  stateKept e t coupled r && ((timerStep e dt r3).state != r3.state)

/-! ### Promotion (R76) -/

/-- Each elapsed value at or above its limit is set to the limit. -/
def clampTimers (e : SeqEnv) (r : SeqRecord) : SeqRecord :=
  { r with
    pre := min r.pre (Profile.preLimitMs e.prof)
    fast := min r.fast (Profile.fastLimitMs e.prof) }

/-- An elapsed value stands at or above its limit. -/
def overLimit (e : SeqEnv) (r : SeqRecord) : Bool :=
  decide (Profile.preLimitMs e.prof ≤ r.pre) || decide (Profile.fastLimitMs e.prof ≤ r.fast)

/-- The expiry test of a promotion (R76). -/
def promotionExpiry (e : SeqEnv) (r : SeqRecord) : SeqRecord :=
  if overLimit e r then toExpired (clampTimers e r) else r

/-- On a promotion of BANDS the BAND reason is brought up to date (R62, R76). -/
def promotedReason (e : SeqEnv) (which : Promoted) (r : SeqRecord) : SeqRecord :=
  match which with
  | .bands _ => updateBandReason e r
  | .profile _ => r

/-- The sequencer takes a promotion event (R76). -/
def takePromotion (e : SeqEnv) (which : Promoted) (r : SeqRecord) : SeqRecord :=
  match r.state with
  | .precharge => promotionExpiry e (entry e (promotedReason e which r))
  | .fast => promotionExpiry e (entry e (promotedReason e which r))
  | .taper => promotionExpiry e (entry e (promotedReason e which r))
  | .paused => afterReasons e r.reasons (promotedReason e which (promotionExpiry e r))
  | .expired => promotedReason e which (clampTimers e r)
  | .idle => promotedReason e which r
  | .absent => promotedReason e which r
  | .full => promotedReason e which r

end Seq

/-! ### The record in the part -/

/-- Whether a change of the record is one that queues a notice: of state, stage index or band (R79). -/
def seqNotable (old new : SeqRecord) : Bool :=
  old.state != new.state || old.k != new.k || old.band != new.band

/-- The payload of the sequencer's notice (R79). -/
def seqPayload (c : Cell) (r : SeqRecord) : Payload := .charge c r.state r.k r.full r.band r.reasons

/-- The sequencer's record becomes the one given, with its notice when the change is notable (R79). -/
def State.updateSeq (s : State) (c : Cell) (new : SeqRecord) : State :=
  if seqNotable (s.seq.get c) new then (s.setSeq c new).notify (seqPayload c new)
  else s.setSeq c new

/-- The band temperature of a cell on a set: its own, or under coupling the higher usable one (R60). -/
def bandTemp (m : MeasSet) (c : Cell) (coupled : Bool) : Option Int :=
  if m.tempOk c then
    if coupled && m.tempOk c.other then some (max (m.temp c) (m.temp c.other)) else some (m.temp c)
  else none

/-- The hinge monitor shows the hinge CLOSED and settled (R60). -/
def State.folded (s : State) : Bool := s.hinge.position == .closed && s.hinge.settled

/-- Coupling acts on a set for a cell that has a band temperature (R60, log 31). -/
def State.coupledOn (s : State) (c : Cell) (m : MeasSet) : Bool := s.folded && m.tempOk c

/-- VC and its age, of a cell in a set. -/
def SeqSeen.onSet (v : SeqSeen) (c : Cell) (m : MeasSet) : SeqSeen :=
  { v with vc := m.vc c, age := m.vcAge c }

/-- The copy that a promotion made active is the one the sets are handled against from then on (R51). -/
def SeqSeen.onPromotion (v : SeqSeen) : Promoted → SeqSeen
  | .profile w => { v with prof := w }
  | .bands w => { v with bands := w }

/-- A stage that the copy worked from does not use is a stage of the active copy, which gave it; then that
copy is the one the sets are handled against, so that no set reads words beyond NSTAGE (R41, log 41). -/
def SeqSeen.holding (v : SeqSeen) (active : Words) (k : Nat) : SeqSeen :=
  if k ≤ Profile.nstage v.prof then v else { v with prof := active }

/-- What one sequencer holds of what it has taken becomes the one given. -/
def State.setSeenOf (s : State) (c : Cell) (v : SeqSeen) : State := s.setSeen (s.seen.set c v)

/-- The record becomes the one that an event between sets gives, with what the sets after it are handled
against. -/
def State.takeEventSeq (s : State) (c : Cell) (new : SeqRecord) : State :=
  (s.setSeenOf c ((s.seen.get c).holding (s.tables.profile.get c).active new.k)).updateSeq c new

/-- The sequencer handles a set: the record, the notice, VC, and a full mark sent to the counter (R59,
R70). -/
def State.handleSet (s : State) (c : Cell) (m : MeasSet) : State :=
  let out := Seq.takeSet (s.seqEnvOn c m) (bandTemp m c s.folded) (s.coupledOn c m) m.dt (s.seq.get c)
  let t := (s.setSeenOf c ((s.seen.get c).onSet c m)).updateSeq c out.1
  if out.2 then
    t.setHanded
      { t.handed with fullMark := t.handed.fullMark.set c (t.handed.fullMark.get c + 1) }
  else t

/-- The oldest set that waits for the sequencer is taken from its list. -/
def State.dropSeqSet (s : State) (c : Cell) (rest : List MeasSet) : State :=
  s.setHanded { s.handed with seqSet := s.handed.seqSet.set c rest }

/-- SEQUENCER_SET_HANDLING (R59). -/
def execSequencerSetHandling (c : Cell) (s : State) : Result :=
  match s.handed.seqSet.get c with
  | m :: rest => .next ((s.dropSeqSet c rest).handleSet c m)
  | [] => .next s

/-- The oldest set that waits takes the timer of the state to its limit (R73). -/
def State.setExpires (s : State) (c : Cell) (m : MeasSet) : Bool :=
  Seq.expiresOn (s.seqEnvOn c m) (bandTemp m c s.folded) (s.coupledOn c m) m.dt (s.seq.get c)

/-- A timer of a charging state that stands at the limit of the copy that the sets are handled against
expires (log 16). -/
def State.expireNow (s : State) (c : Cell) : State :=
  s.updateSeq c (Seq.expireIfDue { s.seqEnv c with prof := (s.seen.get c).prof } (s.seq.get c))

/-- SAFETY_TIMER_EXPIRY (R73): it comes about as the oldest waiting set is handled, when step 4 of that
set takes the timer to its limit; a timer of a charging state that already stands at its limit expires
at once (log 16). -/
def execSafetyTimerExpiry (c : Cell) (s : State) : Result :=
  match s.handed.seqSet.get c with
  | m :: rest =>
    if s.setExpires c m then .next ((s.dropSeqSet c rest).handleSet c m)
    else .next (s.expireNow c)
  | [] => .next (s.expireNow c)

/-- A sequencer's oldest input signal is taken from its list. -/
def State.dropSeqSignal (s : State) (c : Cell) (rest : List InputSignal) : State :=
  s.setHanded { s.handed with seqSignal := s.handed.seqSignal.set c rest }

/-- SEQ_INPUT_GRANTED (R75). -/
def execSeqInputGranted (c : Cell) (s : State) : Result :=
  match s.handed.seqSignal.get c with
  | .granted :: rest =>
    let r := s.seq.get c
    .next ((s.dropSeqSignal c rest).takeEventSeq c
      (if r.state = .idle then Seq.entryReset (s.seqEnvHeld c) r else r))
  | .withdrawn :: _ => .next s
  | [] => .next s

/-- SEQ_INPUT_WITHDRAWN (R75). -/
def execSeqInputWithdrawn (c : Cell) (s : State) : Result :=
  match s.handed.seqSignal.get c with
  | .withdrawn :: rest =>
    let t := s.dropSeqSignal c rest
    if (s.seq.get c).state = .absent then .next t
    else .next (t.updateSeq c (Seq.toIdle (s.seq.get c)))
  | .granted :: _ => .next s
  | [] => .next s

/-- SEQ_INHIBIT_EVENT (R62, R64, R65, R179). -/
def execSeqInhibitEvent (c : Cell) (s : State) : Result :=
  match s.handed.seqInhibit.get c with
  | nonEmpty :: rest =>
    let r := s.seq.get c
    let new := { r with reasons := { r.reasons with inhibit := nonEmpty } }
    .next ((s.setHanded { s.handed with seqInhibit := s.handed.seqInhibit.set c rest }).takeEventSeq c
      (Seq.afterReasons (s.seqEnv c) r.reasons new))
  | [] => .next s

/-- SEQ_FAULT_REASON_UPDATE (R62, R64, R65, R124). -/
def execSeqFaultReasonUpdate (c : Cell) (s : State) : Result :=
  match s.handed.seqFault.get c with
  | restriction :: rest =>
    let r := s.seq.get c
    let new := { r with reasons := { r.reasons with fault := restriction.blocksCharge } }
    .next ((s.setHanded { s.handed with seqFault := s.handed.seqFault.set c rest }).takeEventSeq c
      (Seq.afterReasons (s.seqEnv c) r.reasons new))
  | [] => .next s

/-- SEQ_PROMOTION (R51, R76): the event is handled with the VC of the set handled last, against the active
copies; the sets after it are handled against the copy that the promotion made active. -/
def execSeqPromotion (c : Cell) (s : State) : Result :=
  match s.handed.seqPromotion.get c with
  | which :: rest =>
    let t := (s.setHanded { s.handed with seqPromotion := s.handed.seqPromotion.set c rest }).setSeenOf c
      ((s.seen.get c).onPromotion which)
    .next (t.takeEventSeq c (Seq.takePromotion (s.seqEnvHeld c) which (s.seq.get c)))
  | [] => .next s

end Sys2Proof.Machine
end

