-- ==== Sys2Proof/Machine/Allocate.lean ====
section
/-! DEFINITION. Machine/Allocate.lean: the allocator (chapter 05): capacity, headroom, grants, discharge sharing, path orders and the transfer. -/

namespace Sys2Proof.Machine

/-- The values a frame reads from the set (R82, R84). -/
def holdTest (m : MeasSet) : Bool :=
  usable m.age.vbus && usable m.age.vsys && usable m.age.iload

/-- CAP_OUT of an ACTIVE input (R86). -/
def capacity (ilim vbus eff vsys sd : Int) : Int :=
  divFloor (divFloor (ilim * vbus * eff) (max 3000 vsys * 1000) * sd) 1000

/-- Stage 1 (R86). -/
def State.capOut (s : State) (m : MeasSet) : Int :=
  if s.inputActive then
    capacity s.input.ilim m.value.vbus (Limits.eff s.tables.limits) m.value.vsys s.input.sd
  else 0

/-- Stage 2 (R88). -/
def State.headroom (s : State) (m : MeasSet) : Int :=
  if s.inputActive then s.capOut m - m.value.iload - Limits.margin s.tables.limits
  else -m.value.iload

/-- The near capped demand (R89). -/
def State.cappedNear (s : State) : Int :=
  if s.path.near.restriction.blocksCharge then 0 else s.seq.near.demand

/-- The first two caps of the far cell (R89). -/
def State.hingeFlexCapped (s : State) (m : MeasSet) (d : Int) : Int :=
  let a := if s.hinge.settled then d else min d (Limits.hingeCap s.tables.limits)
  if m.flexValid && decide (Limits.rfMax s.tables.limits < m.rflex) then
    min a (Limits.flexCap s.tables.limits)
  else a

/-- The far capped demand (R89). -/
def State.cappedFar (s : State) (m : MeasSet) : Int :=
  if s.path.far.restriction.blocksCharge then 0 else s.hingeFlexCapped m s.seq.far.demand

/-- w_N (R91). -/
def nearShare (gain delta : Int) : Int := clamp 0 1000 (500 + divTrunc (delta * gain) 4)

/-- The grants before rounding (R90, R91). -/
def split (h w dN dF : Int) : PerCell Int :=
  if h ≤ 0 then ⟨0, 0⟩
  else if dN + dF ≤ h then ⟨dN, dF⟩
  else
    let g1 := min dN (divFloor (h * w) 1000)
    let gF := min dF (h - g1)
    ⟨min dN (h - gF), gF⟩

/-- The grants (R90 to R92). -/
def grants (h w dN dF : Int) : PerCell Int := (split h w dN dF).map (downTo 25)

/-- The mode of a frame that passes the HOLD test (R85). -/
def modeOf (active transfer : Bool) (h : Int) (g : PerCell Int) : Mode :=
  if !active then if transfer then .transfer else .battery
  else if 0 < h ∧ (g.near ≠ 0 ∨ g.far ≠ 0) then .charge
  else if 0 ≤ h then .idleSupply
  else .supplement

/-- The limit L of the lower cell, before step 3 of R95 (R94, R95). -/
def dischargeLimit (gain idisMax deficit delta : Int) : Int :=
  let low := clamp 0 500 (500 - divTrunc ((if delta < 0 then -delta else delta) * gain) 4)
  let l := downTo 25 (divFloor (deficit * low) 1000)
  clamp 25 idisMax (max l (upTo 25 (deficit - idisMax)))

/-- The outcome of stage 6: no limit, a limit on a cell, or a limit on the far cell that the hinge cap
brings to 0 (R94, R95). -/
inductive Sharing where
  | none
  | limited (c : Cell) (l : Int)
  | farDiode
  deriving DecidableEq, Repr

/-- Stage 6 (R94, R95), with Δ = SOC_F − SOC_N. -/
def State.sharing (s : State) (h delta : Int) : Sharing :=
  let dead := Balance.deadband s.tables.balance
  if -dead ≤ delta ∧ delta ≤ dead then .none
  else
    let l := dischargeLimit (Balance.gain s.tables.balance) s.factory.idisMax (-h) delta
    if 0 < delta then .limited .near l
    else if s.hinge.settled then .limited .far l
    else
      let capped := hingeCapped (Limits.hingeCap s.tables.limits) l
      if capped = 0 then .farDiode else .limited .far capped

/-- The discharge limit that the record holds (R83). -/
def Sharing.recorded : Sharing → Option (Cell × Int)
  | .none => Option.none
  | .limited c l => some (c, l)
  | .farDiode => Option.none

/-- The closing conditions for a path (R97). -/
def State.mayClose (s : State) (m : MeasSet) (c : Cell) : Bool :=
  let d := m.value.vcn - m.value.vcf
  let win := Limits.xwin s.tables.limits
  usable m.age.vcn && usable m.age.vcf && decide (-win ≤ d) && decide (d ≤ win)
    && s.hinge.settled && (s.path.get c).restriction == .none

/-- CLOSED if the closing conditions hold for the path, DIODE otherwise (R97). -/
def State.closeOrDiode (s : State) (m : MeasSet) (c : Cell) : Order :=
  if s.mayClose m c then .closed else .diode

/-- The orders of SUPPLEMENT (R96). -/
def supplementOrder (sh : Sharing) (c : Cell) : Order :=
  match sh with
  | .none => .diode
  | .limited d l => if c = d then .limit l else .diode
  | .farDiode => .diode

/-- The orders of BATTERY (R97). -/
def State.batteryOrder (s : State) (m : MeasSet) (sh : Sharing) (c : Cell) : Order :=
  match sh with
  | .none => s.closeOrDiode m c
  | .limited d l => if c = d then .limit l else s.closeOrDiode m c
  | .farDiode => if c = .far then .diode else s.closeOrDiode m c

/-- The orders of TRANSFER (R96). -/
def transferOrder (t : TransferRecord) (c : Cell) : Order :=
  if t.receiver = some c then .regulate t.current else .diode

/-- The orders of CHARGE (R96). -/
def chargeOrder (g : Int) : Order := if g = 0 then .diode else .regulate g

/-- Stage 7: the order of one path (R96, R97). -/
def State.orderOf (s : State) (m : MeasSet) (mode : Mode) (g : PerCell Int) (sh : Sharing)
    (c : Cell) : Order :=
  match mode with
  | .hold => .diode
  | .charge => chargeOrder (g.get c)
  | .idleSupply => .diode
  | .supplement => supplementOrder sh c
  | .transfer => transferOrder s.alloc.transfer c
  | .battery => s.batteryOrder m sh c

/-! ### The transfer (R101 to R104) -/

/-- The receiver's VC is usable and below its VFULL_eff − 100 mV, or not (R101, R104). -/
def State.receiverVfull (s : State) (c : Cell) : Int :=
  Seq.vfullEff (s.seqEnv c) (s.seq.get c) - 100

/-- The receiver's band is 0 or its pct is 0, or its sequencer is ABSENT (R101, R104). -/
def State.receiverBarred (s : State) (c : Cell) : Bool :=
  Seq.bandBars s.tables.bands.active (s.seq.get c).band || (s.seq.get c).state == .absent

/-- The transfer current for a receiver (R101, condition 13). -/
def State.transferCurrent (s : State) (c : Cell) : Int :=
  downTo 25 (divFloor (Balance.xferI s.tables.balance
    * Bands.pct s.tables.bands.active (s.seq.get c).band) 100)

/-- The cell with the lower SOC, for a Δ that is not 0. -/
def lowerCell (delta : Int) : Cell := if 0 < delta then .near else .far

/-- |Δ|. -/
def absDelta (delta : Int) : Int := if delta < 0 then -delta else delta

/-- The start conditions of R101 for a receiver, beside 1 and 3, which the transfer step tests. -/
def State.mayStart (s : State) (m : MeasSet) (delta : Int) (receiver : Cell) : Bool :=
  s.alloc.enable && s.hinge.settled
    && decide (m.value.iload ≤ Balance.xferLoadMax s.tables.balance)
    && decide (Balance.xferStart s.tables.balance ≤ absDelta delta)
    && decide (150 ≤ s.soc receiver.other)
    && s.path.near.restriction == .none && s.path.far.restriction == .none
    && !s.receiverBarred receiver
    && s.inhibit.get receiver == 0
    && m.vcOk receiver && decide (m.vc receiver < s.receiverVfull receiver)
    && decide (100 ≤ s.transferCurrent receiver)

/-- The frame checks of R104 for a transfer in progress, in order; none when every check passes. -/
def State.transferCheck (s : State) (m : MeasSet) (delta : Int) (donor receiver : Cell) :
    Option EndCause :=
  if absDelta delta ≤ Balance.xferStop s.tables.balance ∨ s.soc donor ≤ s.soc receiver then
    some .done
  else if Balance.xferLoadMax s.tables.balance + 200 < m.value.iload then some .load
  else if m.vcOk receiver ∧ s.receiverVfull receiver ≤ m.vc receiver then some .full
  else if Balance.xferMax s.tables.balance * 1000 ≤ s.alloc.transfer.moved then some .limit
  else if s.soc donor < 150 then some .donor
  else if s.receiverBarred receiver then some .band
  else none

/-- The cooldown counts down at every frame (R107). -/
def State.coolDown (s : State) : State :=
  s.setAlloc
    { s.alloc with
      transfer := { s.alloc.transfer with cooldown := s.alloc.transfer.cooldown - 1 } }

/-- A transfer starts (R102). -/
def State.startTransfer (s : State) (receiver : Cell) : State :=
  s.setAlloc
    { s.alloc with
      transfer :=
        { s.alloc.transfer with
          active := true
          donor := some receiver.other
          receiver := some receiver
          current := s.transferCurrent receiver
          moved := 0
          frames := 0 } }

/-- The frames elapsed of a transfer in progress go up by 1 (R102). -/
def State.countFrame (s : State) : State :=
  s.setAlloc
    { s.alloc with
      transfer := { s.alloc.transfer with frames := countUpTo 65535 s.alloc.transfer.frames } }

/-- The frame checks end the transfer, or it goes on (R104, R106). -/
def State.checkTransfer (s : State) (m : MeasSet) (delta : Int) : State :=
  match s.alloc.transfer.donor, s.alloc.transfer.receiver with
  | some donor, some receiver =>
    match s.transferCheck m delta donor receiver with
    | some cause => s.endTransfer cause
    | none => s
  | _, _ => s

/-- The transfer step (R102). -/
def State.transferStep (s : State) (m : MeasSet) (delta : Int) : State :=
  let t := s.coolDown
  if t.inputActive then t
  else if t.alloc.transfer.active then t.countFrame.checkTransfer m delta
  else if t.alloc.transfer.cooldown = 0 ∧ t.mayStart m delta (lowerCell delta) then
    t.startTransfer (lowerCell delta)
  else t

/-- The transfer step of a HOLD frame (R84). -/
def State.holdTransfer (s : State) : State :=
  let t := s.coolDown
  if t.alloc.transfer.active then t.endTransfer .stale else t

/-! ### The frame -/

/-- The frame number goes up by 1, and 65535 is followed by 0 (R82). -/
def nextFrame (n : Nat) : Nat := if n < 65535 then n + 1 else 0

/-- The start of a frame (R82). -/
def State.startFrame (s : State) : State :=
  s.setAlloc
    { s.alloc with frame := { s.alloc.frame with number := nextFrame s.alloc.frame.number } }

/-- The orders of a published record are handed to the paths (R98). -/
def Handed.orders (h : Handed) (o : PerCell Order) : Handed :=
  { h with pathOrder := ⟨h.pathOrder.near ++ [o.near], h.pathOrder.far ++ [o.far]⟩ }

/-- The record is published and its orders are handed on (R98). -/
def State.publishFrame (s : State) (f : FrameRecord) : State :=
  (s.setAlloc { s.alloc with frame := f }).setHanded (s.handed.orders f.order)

/-- The record of a HOLD frame (R84). -/
def State.holdRecord (s : State) (m : MeasSet) : FrameRecord where
  number := s.alloc.frame.number
  mode := .hold
  ilim := s.input.ilim
  sd := s.input.sd
  vbus := m.value.vbus
  vsys := m.value.vsys
  iload := m.value.iload
  soc := ⟨s.soc .near, s.soc .far⟩
  demand := ⟨s.seq.near.demand, s.seq.far.demand⟩
  capOut := 0
  headroom := 0
  capped := ⟨0, 0⟩
  wN := 500
  grant := ⟨0, 0⟩
  limit := none
  order := ⟨.diode, .diode⟩
  transferActive := false

/-- Δ = SOC_F − SOC_N (R91, R94, R101). -/
def State.delta (s : State) : Int := s.soc .far - s.soc .near

/-- Stages 3 and 4 of a frame (R89 to R92). -/
def State.frameGrants (s : State) (m : MeasSet) : PerCell Int :=
  grants (s.headroom m) (nearShare (Balance.gain s.tables.balance) s.delta) s.cappedNear
    (s.cappedFar m)

/-- The mode after the transfer step (R85). -/
def State.frameMode (s : State) (m : MeasSet) : Mode :=
  modeOf s.inputActive s.alloc.transfer.active (s.headroom m) (s.frameGrants m)

/-- Stage 6 of a frame of this mode: taken in SUPPLEMENT and BATTERY alone (R84, R94). -/
def State.frameSharing (s : State) (m : MeasSet) : Sharing :=
  match s.frameMode m with
  | .supplement => s.sharing (s.headroom m) s.delta
  | .battery => s.sharing (s.headroom m) s.delta
  | .hold => .none
  | .charge => .none
  | .idleSupply => .none
  | .transfer => .none

/-- The record of a frame that passes the HOLD test, from the state after its transfer step (R83, R84). -/
def State.frameRecord (s : State) (m : MeasSet) : FrameRecord where
  number := s.alloc.frame.number
  mode := s.frameMode m
  ilim := s.input.ilim
  sd := s.input.sd
  vbus := m.value.vbus
  vsys := m.value.vsys
  iload := m.value.iload
  soc := ⟨s.soc .near, s.soc .far⟩
  demand := ⟨s.seq.near.demand, s.seq.far.demand⟩
  capOut := s.capOut m
  headroom := s.headroom m
  capped := ⟨s.cappedNear, s.cappedFar m⟩
  wN := nearShare (Balance.gain s.tables.balance) s.delta
  grant := s.frameGrants m
  limit := (s.frameSharing m).recorded
  order :=
    ⟨s.orderOf m (s.frameMode m) (s.frameGrants m) (s.frameSharing m) .near,
     s.orderOf m (s.frameMode m) (s.frameGrants m) (s.frameSharing m) .far⟩
  transferActive := s.alloc.transfer.active

/-- A frame on a set (R82, R84). -/
def State.takeFrame (s : State) (m : MeasSet) : State :=
  let t := s.startFrame
  if holdTest m then
    let u := t.transferStep m t.delta
    u.publishFrame (u.frameRecord m)
  else
    let u := t.holdTransfer
    u.publishFrame (u.holdRecord m)

/-- ALLOCATION_FRAME (R82): the allocator takes a frame on the oldest set that waits for it. -/
def execAllocationFrame (s : State) : Result :=
  match s.handed.allocSet with
  | m :: rest => .next ((s.setHanded { s.handed with allocSet := rest }).takeFrame m)
  | [] => .next s

/-- Whether an event ends a transfer in progress (R105): an inhibit does so on the receiver alone. -/
def eventEnds (t : TransferRecord) : TransferEvent → Bool
  | .inputGranted => true
  | .hingeUnsettled => true
  | .restriction _ => true
  | .inhibit c => t.receiver == some c
  | .sysUv => true

/-- The cause an event records (R105). -/
def eventCause : TransferEvent → EndCause
  | .inputGranted => .input
  | .hingeUnsettled => .hinge
  | .restriction _ => .fault
  | .inhibit _ => .inhibit
  | .sysUv => .sys

/-- An ending event is taken from what waits for the transfer operation; none where it does not wait. Input
granted is taken in its order among the input stage's signals (R137). -/
def Handed.takeEvent (h : Handed) (e : TransferEvent) : Option Handed :=
  if e = .inputGranted then
    match h.allocSignal with
    | .granted :: rest => some { h with allocSignal := rest }
    | .withdrawn :: _ => none
    | [] => none
  else if e ∈ h.transfer then some { h with transfer := h.transfer.erase e }
  else none

/-- TRANSFER_EVENT_END (R105, R106): the transfer operation takes an event that waits for it. -/
def execTransferEventEnd (e : TransferEvent) (s : State) : Result :=
  match s.handed.takeEvent e with
  | some h =>
    let t := s.setHanded h
    if eventEnds s.alloc.transfer e then .next (t.endTransferOnEvent (eventCause e)) else .next t
  | none => .next s

/-- The record's grants become the ones given (R93). -/
def State.setGrants (s : State) (g : PerCell Int) : State :=
  s.setAlloc { s.alloc with frame := { s.alloc.frame with grant := g } }

/-- The signals that wait for the allocator, those that it takes with no effect taken: with no transfer in
progress a grant ends nothing (R105). -/
def State.allocSignals (s : State) : List InputSignal :=
  if s.alloc.transfer.active then s.handed.allocSignal
  else s.handed.allocSignal.dropWhile (· == .granted)

/-- GRANTS_CLEARED_ON_WITHDRAWAL (R93): a grant that waits ahead of the withdrawal is taken first (R137), by
TRANSFER_EVENT_END where it ends a transfer in progress. -/
def execGrantsClearedOnWithdrawal (s : State) : Result :=
  match s.allocSignals with
  | .withdrawn :: rest =>
    .next ((s.setHanded { s.handed with allocSignal := rest }).setGrants ⟨0, 0⟩)
  | .granted :: _ => .next s
  | [] => .next s

/-- FAR_GRANT_HINGE_CAP (R93). -/
def execFarGrantHingeCap (s : State) : Result :=
  match s.handed.grantHinge with
  | n + 1 =>
    let g := s.alloc.frame.grant
    .next ((s.setHanded { s.handed with grantHinge := n }).setGrants
      { g with far := hingeCapped (Limits.hingeCap s.tables.limits) g.far })
  | 0 => .next s

end Sys2Proof.Machine
end

