-- ==== Sys2Proof/Machine/Counter.lean ====
section
/-! DEFINITION. Machine/Counter.lean: the charge counters (chapter 02): the three steps on a set, marks, seeding and capacity learning. -/

namespace Sys2Proof.Machine

/-- What a counter reads besides its record as it takes a set (R23). -/
structure CounterEnv where
  design : Int
  vuv : Int
  ocv : Words
  dt : Int
  vc : Int
  vcOk : Bool
  current : Int
  currentOk : Bool
  deriving DecidableEq, Repr

/-- The values of a set and the thresholds in force for a cell's counter (R23). -/
def State.counterEnv (s : State) (c : Cell) (m : MeasSet) : CounterEnv where
  design := s.factory.dcap c
  vuv := Protect.vuv s.tables.protect
  ocv := s.tables.ocv
  dt := m.dt
  vc := m.vc c
  vcOk := m.vcOk c
  current := m.current c
  currentOk := m.currentOk c

/-- The pending seed's condition is met by the set (R30). -/
def seedDue (e : CounterEnv) : SeedPending → Bool
  | .none => false
  | .powerOn => e.vcOk
  | .requested =>
    e.vcOk && e.currentOk && decide (-100 ≤ e.current) && decide (e.current ≤ 100)

/-- The s between two neighbours of a rising table, from the s of the first one on (R29, step 1). -/
def ocvBetween (v : Int) : Int → List Int → Int
  | base, a :: b :: rest =>
    if v < b then base + divFloor (100 * (v - a)) (b - a) else ocvBetween v (base + 100) (b :: rest)
  | base, _ => base

/-- The seed state of charge of a voltage (R29, step 1). -/
def ocvState (ocv : Words) (v : Int) : Int :=
  if v ≤ ocv.at 0 then 0 else if ocv.at 10 ≤ v then 1000 else ocvBetween v 0 ocv

/-- A seed is taken from the set's VC (R28, R29). The set is not integrated, and its whole increment is
0 (R27). -/
def CounterRecord.takeSeed (e : CounterEnv) (r : CounterRecord) : CounterRecord :=
  let table := if rising e.ocv then e.ocv else defaultOcv
  let s := ocvState table e.vc
  { r with
    q := s * r.cap
    residue := 0
    learning := .idle
    seed := .none
    lastWhole := 0
    note := some ⟨e.vc, s, !rising e.ocv⟩ }

/-- The charge a set brings, in mA·ms, with the residue (R24, step 1). -/
def CounterRecord.total (e : CounterEnv) (r : CounterRecord) : Int := r.residue + e.current * e.dt

/-- The whole increment of the set, in µAh (R24, step 2). -/
def CounterRecord.whole (e : CounterEnv) (r : CounterRecord) : Int := divTrunc (r.total e) 3600

/-- The bound of A (R21). -/
def aBound (e : CounterEnv) : Int := 2 * e.design * 1000

/-- The set is integrated (R24, R25). -/
def CounterRecord.integrate (e : CounterEnv) (r : CounterRecord) : CounterRecord :=
  let w := r.whole e
  let q := clamp 0 (r.cap * 1000) (r.q + w)
  let a := if r.learning = .tracking then clamp 0 (aBound e) (r.a + w) else r.a
  { r with
    q := q
    residue := if q = r.q + w then r.total e - w * 3600 else 0
    a := a
    learning := if r.learning = .tracking ∧ a = aBound e then .idle else r.learning
    lastWhole := w }

/-- The set is an integration gap (R26). -/
def CounterRecord.gap (r : CounterRecord) : CounterRecord :=
  { r with learning := .idle, lastWhole := 0 }

/-- The seed step and the count step (R23). A set that leaves a POWER-ON seed waiting, with VC unusable, is
counted all the same, so Q may leave 0 before the seed is taken (R30, log 47). -/
def CounterRecord.seedOrCount (e : CounterEnv) (r : CounterRecord) : CounterRecord :=
  if seedDue e r.seed then r.takeSeed e
  else if e.currentOk then r.integrate e
  else r.gap

/-- The set meets the empty-mark condition (R32). -/
def emptyMark (e : CounterEnv) : Bool :=
  e.vcOk && decide (e.vc ≤ e.vuv + 200) && e.currentOk && decide (e.current < 0)

/-- The mark step (R32). -/
def CounterRecord.mark (e : CounterEnv) (r : CounterRecord) : CounterRecord :=
  if emptyMark e then { r with q := 0, residue := 0, learning := .tracking, a := 0 } else r

/-- The three steps on a set (R23). -/
def CounterRecord.takeSet (e : CounterEnv) (r : CounterRecord) : CounterRecord :=
  (r.seedOrCount e).mark e

/-- The receiver's positive whole increment is added to the moved charge of a transfer in progress
(R103). -/
def TransferRecord.count (t : TransferRecord) (c : Cell) (whole : Int) : TransferRecord :=
  if t.active && t.receiver == some c && decide (0 < whole) then { t with moved := t.moved + whole }
  else t

/-- COUNTER_SET_STEPS (R23): the counter takes the oldest set that waits for it. -/
def execCounterSetSteps (c : Cell) (s : State) : Result :=
  match s.handed.counterSet.get c with
  | m :: rest =>
    let r := (s.counter.get c).takeSet (s.counterEnv c m)
    .next (((s.setCounter c r).setAlloc
        { s.alloc with transfer := s.alloc.transfer.count c r.lastWhole }).setHanded
      { s.handed with counterSet := s.handed.counterSet.set c rest })
  | [] => .next s

/-- L of R34, in mAh. -/
def CounterRecord.learned (r : CounterRecord) : Int := divFloor r.a 1000

/-- L lies within the CAP range (R34). -/
def learnedFits (design : Int) (r : CounterRecord) : Bool :=
  decide (capLo design ≤ r.learned) && decide (r.learned ≤ capHi design)

/-- CAP after step 1 of a full mark (R34). -/
def capAfterMark (design : Int) (r : CounterRecord) : Int :=
  if r.learning = .tracking ∧ learnedFits design r then r.learned else r.cap

/-- The record after a full mark (R34). -/
def CounterRecord.fullMark (design : Int) (r : CounterRecord) : CounterRecord :=
  { r with
    cap := capAfterMark design r
    learning := .idle
    q := capAfterMark design r * 1000
    residue := 0 }

/-- FULL_MARK (R34): the counter takes a full mark that its sequencer has sent. -/
def execFullMark (c : Cell) (s : State) : Result :=
  match s.handed.fullMark.get c with
  | n + 1 =>
    let r := s.counter.get c
    let design := s.factory.dcap c
    let t := (s.setCounter c (r.fullMark design)).setHanded
      { s.handed with fullMark := s.handed.fullMark.set c n }
    if r.learning = .tracking then
      .next (t.notify (.learn c (learnedFits design r) r.learned (capAfterMark design r)))
    else .next t
  | 0 => .next s

/-- A CAP that comes into force: Q is trimmed and learning ends (R36). -/
def CounterRecord.setCap (r : CounterRecord) (cap : Int) : CounterRecord :=
  { r with
    cap := cap
    q := min r.q (cap * 1000)
    residue := if cap * 1000 < r.q then 0 else r.residue
    learning := .idle }

end Sys2Proof.Machine
end

