-- ==== Sys2Proof/Machine/Input.lean ====
section
/-! DEFINITION. Machine/Input.lean: the input stage (chapter 07): comparators, filters, edges, qualification, suspend reasons and the sag derate. -/

namespace Sys2Proof.Machine

/-- The raw level of a filtered input changes: the filter timer starts when it differs from the filtered
level and stops when it returns to it (R131, R147). -/
def Filtered.rawTo (f : Filtered) (time : Nat) (raw : Bool) : Filtered :=
  if raw = f.raw then f
  else { f with raw := raw, timer := if raw = f.level then none else some time }

/-- The raw level changes while the filter does not run (R144, R155). -/
def Filtered.rawOnly (f : Filtered) (raw : Bool) : Filtered := { f with raw := raw }

/-- The filter starts: its timer runs when the raw level differs from the filtered one (R144). -/
def Filtered.start (f : Filtered) (time : Nat) : Filtered :=
  { f with timer := if f.raw = f.level then none else some time }

/-- The filter timer expires: the filtered level takes the raw level (R131, R147). -/
def Filtered.expire (f : Filtered) : Filtered := { f with level := f.raw, timer := none }

/-- The raw output of PRESENT at a voltage (R130). -/
def presentRaw (old : Bool) (vbus : Int) : Bool :=
  if 4300 ≤ vbus then true else if vbus < 3900 then false else old

/-- The raw output of OV at a voltage (R130). -/
def ovRaw (old : Bool) (vbus : Int) : Bool :=
  if 14000 < vbus then true else if vbus < 13500 then false else old

/-- A comparator's raw output becomes the one given; the filters run from the completion of the power-on
load on (R131, R144). -/
def State.rawTo (s : State) (f : Filtered) (raw : Bool) : Filtered :=
  if s.phase = .running then f.rawTo s.factory.attachFilter raw else f.rawOnly raw

/-- COMPARATOR_RAW_CHANGE (R130, R131). -/
def execComparatorRawChange (vbus : Int) (s : State) : Result :=
  .next (s.setInput
    { s.input with
      present := s.rawTo s.input.present (presentRaw s.input.present.raw vbus)
      ov := s.rawTo s.input.ov (ovRaw s.input.ov.raw vbus) })

/-- The state after an edge, from the filtered levels as they then stand (R133). An edge that the table
calls not reached leaves the state (log 17). -/
def stateAfterEdge (present ov : Bool) : Comparator → InputState → InputState
  | .present, .detached => if present && !ov then .qualifying else .detached
  | .present, .qualifying => if present then .qualifying else .detached
  | .present, .active => if present then .active else .detached
  | .present, .suspended => if present then .suspended else .detached
  | .present, .blocked => if present then .blocked else .detached
  | .ov, .detached => if ov then .blocked else if present then .qualifying else .detached
  | .ov, .qualifying => if ov then .blocked else .qualifying
  | .ov, .active => if ov then .blocked else .active
  | .ov, .suspended => if ov then .blocked else .suspended
  | .ov, .blocked => if ov then .blocked else if present then .qualifying else .detached

/-- The filter of a comparator. -/
def InputStage.filter (r : InputStage) : Comparator → Filtered
  | .present => r.present
  | .ov => r.ov

/-- The record with the edge of a comparator recorded (R131). -/
def InputStage.recordEdge (r : InputStage) : Comparator → InputStage
  | .present => { r with present := r.present.expire }
  | .ov => { r with ov := r.ov.expire }

/-- ATTACH_FILTER_EXPIRY (R131, R133): only when the filter timer has run out. -/
def execAttachFilterExpiry (k : Comparator) (s : State) : Result :=
  if timeUp (s.input.filter k).timer then
    let r := s.input.recordEdge k
    .next ((s.setInput r).moveInput (stateAfterEdge r.present.level r.ov.level k r.state))
  else .next s

/-- QUALIFICATION_EXPIRY (R134): only in QUALIFYING with the timer run out. -/
def execQualificationExpiry (s : State) : Result :=
  if s.input.state = .qualifying ∧ timeUp s.input.qual then
    .next (s.moveInput (if s.input.reasons.any then .suspended else .active))
  else .next s

/-- DIE_SUSPEND_REASON_CHANGE (R135, R136, R170). -/
def execDieSuspendReasonChange (s : State) : Result :=
  match s.handed.die with
  | d :: rest =>
    let t := s.setHanded { s.handed with die := rest }
    .next (t.setReasons { t.input.reasons with die := d })
  | [] => .next s

/-- SD after a set's VBUS (R141). -/
def sagStep (vfloor sd vbus : Int) : Int :=
  if vbus < vfloor then max 100 (sd - 100)
  else if vbus < vfloor + 200 then sd
  else min 1000 (sd + 50)

/-- INPUT_SAG_DERATE_STEP (R141): in ACTIVE, with VBUS usable in the set. -/
def execInputSagDerateStep (s : State) : Result :=
  match s.handed.inputSet with
  | m :: rest =>
    let t := s.setHanded { s.handed with inputSet := rest }
    if s.inputActive && usable m.age.vbus then
      .next (t.setInput { t.input with sd := sagStep t.input.vfloor t.input.sd m.value.vbus })
    else .next t
  | [] => .next s

/-- ILIM in force after a value is brought in (R139). -/
def State.setIlim (s : State) (x : Int) : State :=
  s.setInput { s.input with ilim := ilimField.adjust x }

/-- VFLOOR in force after a value is brought in (R139). -/
def State.setVfloor (s : State) (x : Int) : State :=
  s.setInput { s.input with vfloor := vfloorField.adjust x }

end Sys2Proof.Machine
end

