-- ==== Sys2Proof/Machine/HingeMonitor.lean ====
section
/-! DEFINITION. Machine/HingeMonitor.lean: the hinge monitor (chapter 08): fold filters, position, settling, conflict and the start-up sample. -/

namespace Sys2Proof.Machine

/-- The hinge filter time, in tenths of a millisecond (R147, R188). -/
def State.hingeFilterTime (s : State) : Nat := tenths s.factory.hingeFilter

/-- The filter of a fold sense input. -/
def Hinge.filter (h : Hinge) : FoldSense → Filtered
  | .foldA => h.foldA
  | .foldB => h.foldB

/-- The record with one input's filter replaced. -/
def Hinge.setFilter (h : Hinge) : FoldSense → Filtered → Hinge
  | .foldA, f => { h with foldA := f }
  | .foldB, f => { h with foldB := f }

/-- The settle timer, the flag and the conflict count after a change of position (R149, R153). -/
def Hinge.onPosition (h : Hinge) (settle : Nat) : Hinge :=
  match h.position with
  | .opened => { h with settled := settle == 0, settle := if settle = 0 then none else some settle }
  | .closed => { h with settled := settle == 0, settle := if settle = 0 then none else some settle }
  | .moving => { h with settled := false, settle := none }
  | .conflict => { h with settled := false, settle := none, conflicts := countUpTo 255 h.conflicts }

/-- The payload of the HINGE notice (R154). -/
def hingePayload (h : Hinge) : Payload :=
  .hinge h.position h.settled h.foldA.level h.foldB.level h.conflicts

/-- The hinge becoming unsettled is handed to the far path, the transfer operation and the frame record
(R151). -/
def Handed.hingeUnsettled (h : Handed) : Handed :=
  { h with
    pathHinge := h.pathHinge + 1
    grantHinge := h.grantHinge + 1
    transfer := h.transfer ++ [.hingeUnsettled] }

/-- HNG_SETTLE in force, in tenths of a millisecond (R149). -/
def State.settleTime (s : State) : Nat := tenths (Limits.hngSettle s.tables.limits)

/-- FOLD_RAW_CHANGE (R147, R155): during the start-up sample a change restarts the start-up timer. -/
def execFoldRawChange (f : FoldSense) (active : Bool) (s : State) : Result :=
  let old := s.hinge.filter f
  if active = old.raw then .next s
  else if s.phase = .running then
    match s.hinge.startup with
    | some _ =>
      .next (s.setHinge
        { s.hinge.setFilter f (old.rawOnly active) with startup := some s.hingeFilterTime })
    | none => .next (s.setHinge (s.hinge.setFilter f (old.rawTo s.hingeFilterTime active)))
  else .next (s.setHinge (s.hinge.setFilter f (old.rawOnly active)))

/-- HINGE_FILTER_EXPIRY (R147 to R154): only when the filter timer has run out. -/
def execHingeFilterExpiry (f : FoldSense) (s : State) : Result :=
  if timeUp (s.hinge.filter f).timer then
    let h := (s.hinge.setFilter f (s.hinge.filter f).expire).onPosition s.settleTime
    let t := (s.setHinge h).notify (hingePayload h)
    .next (if s.hinge.settled && !h.settled then t.setHanded t.handed.hingeUnsettled else t)
  else .next s

/-- SETTLE_TIMER_EXPIRY (R149): only when the settle timer has run out. -/
def execSettleTimerExpiry (s : State) : Result :=
  if timeUp s.hinge.settle then
    let h := { s.hinge with settled := true, settle := none }
    .next ((s.setHinge h).notify (hingePayload h))
  else .next s

/-- STARTUP_SAMPLE_EXPIRY (R155): both filtered levels take the raw levels, and no notice is queued. Only when
the start-up timer has run out. -/
def execStartupSampleExpiry (s : State) : Result :=
  if timeUp s.hinge.startup then
    .next (s.setHinge
      (Hinge.onPosition
        { s.hinge with
          foldA := s.hinge.foldA.expire
          foldB := s.hinge.foldB.expire
          startup := none } s.settleTime))
  else .next s

end Sys2Proof.Machine
end

