-- ==== Sys2Proof/Decode.lean ====
section
/-! DEFINITION. Decode.lean: the command that a table word spells (no row of the table gives bits), and the command that the bytes of a write transaction spell (R197, R198, R212), with the encoder of the same frames. -/

namespace Sys2Proof

/-- No row of spec/opcode_table.json gives bits, so no word spells a command. -/
def decodeTableWord (_nbits _w : Nat) : Option Instr := none

/-! ### Bytes and words -/

/-- The two bytes of a word, little-endian (R212). -/
def le16 (w : Word) : List Byte := [w.extractLsb' 0 8, w.extractLsb' 8 8]

/-- The four bytes of a 32-bit value, little-endian (R212). -/
def le32 (w : BitVec 32) : List Byte :=
  [w.extractLsb' 0 8, w.extractLsb' 8 8, w.extractLsb' 16 8, w.extractLsb' 24 8]

/-- The word that two bytes give, little-endian (R212). -/
def wordOf (lo hi : Byte) : Word := hi ++ lo

/-- The words of a list of bytes; a byte left over is dropped. -/
def wordsOf : List Byte → List Word
  | lo :: hi :: rest => wordOf lo hi :: wordsOf rest
  | _ => []

/-- The bytes of a list of words. -/
def bytesOf : List Word → List Byte
  | [] => []
  | w :: ws => le16 w ++ bytesOf ws

/-- The byte sum, modulo 256 (R198). -/
def byteSum (bytes : List Byte) : Byte := bytes.foldl (· + ·) 0

/-! ### Request frames -/

/-- The 22 request kinds (R212, Request kinds). -/
inductive RequestKind where
  | identify | status | measure | cell | allocation | faults
  | inputLimit | inputSuspend | ceiling | inhibit | faultClear | chargeRestart
  | gaugeSeed | balance | tableRead | tableWrite | store | load | storeCancel
  | noticeFetch | noticeMask | softReset
  deriving DecidableEq, Repr

/-- The request codes (R212). -/
def RequestKind.code : RequestKind → Byte
  | .identify => 0x01
  | .status => 0x02
  | .measure => 0x03
  | .cell => 0x04
  | .allocation => 0x05
  | .faults => 0x06
  | .inputLimit => 0x10
  | .inputSuspend => 0x11
  | .ceiling => 0x12
  | .inhibit => 0x13
  | .faultClear => 0x14
  | .chargeRestart => 0x15
  | .gaugeSeed => 0x16
  | .balance => 0x17
  | .tableRead => 0x20
  | .tableWrite => 0x21
  | .store => 0x22
  | .load => 0x23
  | .storeCancel => 0x24
  | .noticeFetch => 0x30
  | .noticeMask => 0x31
  | .softReset => 0x3F

/-- Every request kind once. -/
def RequestKind.all : List RequestKind :=
  [.identify, .status, .measure, .cell, .allocation, .faults, .inputLimit, .inputSuspend, .ceiling,
   .inhibit, .faultClear, .chargeRestart, .gaugeSeed, .balance, .tableRead, .tableWrite, .store,
   .load, .storeCancel, .noticeFetch, .noticeMask, .softReset]

/-- The request kind of a KIND byte, if it is one of the 22 codes (R198). -/
def RequestKind.ofCode (b : Byte) : Option RequestKind :=
  RequestKind.all.find? fun k => k.code == b

/-- The four checks of a request frame (R198). -/
def frameGood (bytes : List Byte) : Bool :=
  let len := (bytes.getD 2 0).toNat
  decide (3 ≤ bytes.length) && decide (len ≤ 60) && decide (bytes.length = len + 4)
    && (byteSum bytes == 0)

/-- INHIBIT by its function code (R180, R212). -/
def inhibitRequest (tag func target mask : Byte) : Instr :=
  if func = 0 then .inhibitSelect tag target mask
  else if func = 1 then .inhibitSet tag target mask
  else if func = 2 then .inhibitClear tag target mask
  else if func = 4 then .inhibitEmptySelect tag target mask
  else .inhibitTest tag func target mask

/-- BALANCE by its function code (R100, R212). -/
def balanceRequest (tag func : Byte) : Instr :=
  if func = 1 then .balanceEnable tag
  else if func = 2 then .balanceDisable tag
  else if func = 3 then .balanceCancel tag
  else .balanceRead tag func

/-- INPUT-SUSPEND by its function code (R142, R212). -/
def inputSuspendRequest (tag func : Byte) : Instr :=
  if func = 1 then .inputSuspendSuspend tag
  else if func = 2 then .inputSuspendResume tag
  else .inputSuspendRead tag func

/-- NOTICE-MASK by its function code (R202, R212). -/
def noticeMaskRequest (tag func : Byte) (enabled : Word) : Instr :=
  if func = 1 then .noticeMaskWrite tag enabled else .noticeMaskRead tag func enabled

/-- TABLE-WRITE by its final flag (R211). -/
def tableWriteRequest (tag id offset flags : Byte) (words : List Word) : Instr :=
  if flags.getLsbD 0 then .tableWriteFinal tag id offset flags words
  else .tableWrite tag id offset flags words

/-- The request that a kind and a body spell (R212, Request and reply bodies); none where the body
length is wrong for the kind (R198). -/
def requestOf (k : RequestKind) (tag : Byte) (body : List Byte) : Option Instr :=
  match k, body with
  | .identify, [] => some (.identify tag)
  | .status, [] => some (.status tag)
  | .measure, [sect] => some (.measure tag sect)
  | .cell, [c, sect] => some (.cell tag c sect)
  | .allocation, [] => some (.allocation tag)
  | .faults, [sect] => some (.faults tag sect)
  | .inputLimit, [i0, i1, v0, v1] => some (.inputLimit tag (wordOf i0 i1) (wordOf v0 v1))
  | .inputSuspend, [func] => some (inputSuspendRequest tag func)
  | .ceiling, [target, c0, c1] => some (.ceiling tag target (wordOf c0 c1))
  | .inhibit, [func, target, mask] => some (inhibitRequest tag func target mask)
  | .faultClear, [m0, m1] => some (.faultClear tag (wordOf m0 m1))
  | .chargeRestart, [target] => some (.chargeRestart tag target)
  | .gaugeSeed, [target] => some (.gaugeSeed tag target)
  | .balance, [func] => some (balanceRequest tag func)
  | .tableRead, [id, offset, count] => some (.tableRead tag id offset count)
  | .tableWrite, id :: offset :: flags :: count :: rest =>
    if rest.length = 2 * count.toNat then
      some (tableWriteRequest tag id offset flags (wordsOf rest))
    else none
  | .store, [m0, m1] => some (.store tag (wordOf m0 m1))
  | .load, [m0, m1] => some (.load tag (wordOf m0 m1))
  | .storeCancel, [] => some (.storeCancel tag)
  | .noticeFetch, [] => some (.noticeFetch tag)
  | .noticeMask, [func, e0, e1] => some (noticeMaskRequest tag func (wordOf e0 e1))
  | .softReset, [] => some (.softReset tag)
  | _, _ => none

/-- A well-formed request frame's command: UNKNOWN_REQUEST, LENGTH_ERROR or the request (R198). -/
def decodeRequest (kind tag : Byte) (body : List Byte) : Instr :=
  match RequestKind.ofCode kind with
  | none => .unknownRequest kind tag body
  | some k => (requestOf k tag body).getD (.lengthError kind tag body)

/-- The command that a write transaction with these data bytes is (R197, R198). -/
def decodeWrite (bytes : List Byte) : Instr :=
  match bytes with
  | [] => .emptyWrite
  | kind :: tag :: len :: rest =>
    if frameGood (kind :: tag :: len :: rest) then decodeRequest kind tag rest.dropLast
    else .badRequestFrame (kind :: tag :: len :: rest)
  | short => .badRequestFrame short

/-- A request frame: KIND, TAG, LEN, body, CHK (R198, R212). -/
def requestFrame (kind tag : Byte) (body : List Byte) : List Byte :=
  let front := kind :: tag :: BitVec.ofNat 8 body.length :: body
  front ++ [0 - byteSum front]

/-- The data bytes of the write transaction that sends a command; none for the commands that are not
write transactions. -/
def encode : Instr → Option (List Byte)
  | .emptyWrite => some []
  | .badRequestFrame bytes => some bytes
  | .unknownRequest kind tag body => some (requestFrame kind tag body)
  | .lengthError kind tag body => some (requestFrame kind tag body)
  | .identify tag => some (requestFrame RequestKind.identify.code tag [])
  | .status tag => some (requestFrame RequestKind.status.code tag [])
  | .measure tag sect => some (requestFrame RequestKind.measure.code tag [sect])
  | .cell tag c sect => some (requestFrame RequestKind.cell.code tag [c, sect])
  | .allocation tag => some (requestFrame RequestKind.allocation.code tag [])
  | .faults tag sect => some (requestFrame RequestKind.faults.code tag [sect])
  | .inputLimit tag ilim vfloor =>
    some (requestFrame RequestKind.inputLimit.code tag (le16 ilim ++ le16 vfloor))
  | .inputSuspendRead tag func => some (requestFrame RequestKind.inputSuspend.code tag [func])
  | .inputSuspendSuspend tag => some (requestFrame RequestKind.inputSuspend.code tag [1])
  | .inputSuspendResume tag => some (requestFrame RequestKind.inputSuspend.code tag [2])
  | .ceiling tag target value =>
    some (requestFrame RequestKind.ceiling.code tag (target :: le16 value))
  | .inhibitSelect tag target mask =>
    some (requestFrame RequestKind.inhibit.code tag [0, target, mask])
  | .inhibitSet tag target mask =>
    some (requestFrame RequestKind.inhibit.code tag [1, target, mask])
  | .inhibitClear tag target mask =>
    some (requestFrame RequestKind.inhibit.code tag [2, target, mask])
  | .inhibitTest tag func target mask =>
    some (requestFrame RequestKind.inhibit.code tag [func, target, mask])
  | .inhibitEmptySelect tag target mask =>
    some (requestFrame RequestKind.inhibit.code tag [4, target, mask])
  | .faultClear tag mask => some (requestFrame RequestKind.faultClear.code tag (le16 mask))
  | .chargeRestart tag target => some (requestFrame RequestKind.chargeRestart.code tag [target])
  | .gaugeSeed tag target => some (requestFrame RequestKind.gaugeSeed.code tag [target])
  | .balanceRead tag func => some (requestFrame RequestKind.balance.code tag [func])
  | .balanceEnable tag => some (requestFrame RequestKind.balance.code tag [1])
  | .balanceDisable tag => some (requestFrame RequestKind.balance.code tag [2])
  | .balanceCancel tag => some (requestFrame RequestKind.balance.code tag [3])
  | .tableRead tag id offset count =>
    some (requestFrame RequestKind.tableRead.code tag [id, offset, count])
  | .tableWrite tag id offset flags words =>
    some (requestFrame RequestKind.tableWrite.code tag
      (id :: offset :: flags :: BitVec.ofNat 8 words.length :: bytesOf words))
  | .tableWriteFinal tag id offset flags words =>
    some (requestFrame RequestKind.tableWrite.code tag
      (id :: offset :: flags :: BitVec.ofNat 8 words.length :: bytesOf words))
  | .store tag mask => some (requestFrame RequestKind.store.code tag (le16 mask))
  | .load tag mask => some (requestFrame RequestKind.load.code tag (le16 mask))
  | .storeCancel tag => some (requestFrame RequestKind.storeCancel.code tag [])
  | .noticeFetch tag => some (requestFrame RequestKind.noticeFetch.code tag [])
  | .noticeMaskRead tag func enabled =>
    some (requestFrame RequestKind.noticeMask.code tag (func :: le16 enabled))
  | .noticeMaskWrite tag enabled =>
    some (requestFrame RequestKind.noticeMask.code tag (1 :: le16 enabled))
  | .softReset tag => some (requestFrame RequestKind.softReset.code tag [])
  | .powerOnReset | .powerOnLoad | .powerOnLoadCompletion | .roundTimerExpiry | .roundCompletion _
  | .counterSetSteps _ | .fullMark _ | .sequencerSetHandling _ | .safetyTimerExpiry _
  | .seqInputGranted _ | .seqInputWithdrawn _ | .seqInhibitEvent _ | .seqFaultReasonUpdate _
  | .seqPromotion _ | .protectionSetReaction | .inputSagDerateStep | .allocationFrame
  | .transferEventEnd _ | .pathOrderDelivery _ | .pathRestrictionChange _ | .rampTimerExpiry _
  | .pathInputGranted _ | .pathInputWithdrawn _ | .pathHingeUnsettled | .grantsClearedOnWithdrawal
  | .farGrantHingeCap | .overcurrentTrip _ _ | .tripRearm _ _ | .retryTimerExpiry _
  | .dieSuspendReasonChange | .comparatorRawChange _ | .attachFilterExpiry _ | .qualificationExpiry
  | .foldRawChange _ _ | .hingeFilterExpiry _ | .settleTimerExpiry | .startupSampleExpiry
  | .recordCompletion | .supervisorExpiry | .readReply _ => none

end Sys2Proof
end

