-- ==== Sys2Proof/Machine/Paths.lean ====
section
/-! DEFINITION. Machine/Paths.lean: the cell paths (chapter 06): orders, restrictions, the ramp and the immediate events. -/

namespace Sys2Proof.Machine

/-- An order whose value the hinge caps (R115). -/
def Order.hasValue : Order → Bool
  | .limit _ => true
  | .regulate _ => true
  | .openPath => false
  | .diode => false
  | .closed => false

/-- A delivery of the order already held recomputes the path: that of a LIMIT or REGULATE to the far path
while the hinge is settled, so that a cap it took while the hinge was not ends "at the latest" at "the next
frame's delivery" (R115, R152, log 43). -/
def State.sameOrderRecomputes (s : State) (c : Cell) (o : Order) : Bool :=
  c == .far && s.hinge.settled && o.hasValue

/-- PATH_ORDER_DELIVERY (R113, R115): a different order replaces the one held and the path is recomputed;
the same order leaves the record as it is, but for the end of a far path's cap. -/
def execPathOrderDelivery (c : Cell) (s : State) : Result :=
  match s.handed.pathOrder.get c with
  | o :: rest =>
    let t := s.setHanded { s.handed with pathOrder := s.handed.pathOrder.set c rest }
    if (s.path.get c).ordered = o ∧ s.sameOrderRecomputes c o = false then .next t
    else .next (t.orderPath c o)
  | [] => .next s

/-- A restriction change is handed to the cell's sequencer and, from NONE, to the transfer operation
(R124). -/
def Handed.restrictionChange (h : Handed) (c : Cell) (old new : Restriction) : Handed :=
  { h with
    seqFault := h.seqFault.set c (h.seqFault.get c ++ [new])
    transfer := if old = .none then h.transfer ++ [.restriction c] else h.transfer }

/-- PATH_RESTRICTION_CHANGE (R114, R124): the blocks that protection has handed on are combined. A
restriction that stays as it was is no restriction change. -/
def execPathRestrictionChange (c : Cell) (s : State) : Result :=
  match s.handed.pathBlocks.get c with
  | b :: rest =>
    let old := (s.path.get c).restriction
    let t := s.setHanded { s.handed with pathBlocks := s.handed.pathBlocks.set c rest }
    if b.restriction = old then .next t
    else
      let u := (t.setPath c { t.path.get c with restriction := b.restriction }).recompute c
      .next (u.setHanded (u.handed.restrictionChange c old b.restriction))
  | [] => .next s

/-- RAMP_TIMER_EXPIRY (R118): only in RAMP, when the timer has run out. -/
def execRampTimerExpiry (c : Cell) (s : State) : Result :=
  if (s.path.get c).eff = .ramp ∧ timeUp (s.path.get c).ramp then
    .next (s.setPath c { s.path.get c with eff := .closed, ramp := none })
  else .next s

/-- An ordered CLOSED becomes DIODE (R120). -/
def Order.onGrant : Order → Order
  | .closed => .diode
  | .openPath => .openPath
  | .diode => .diode
  | .limit x => .limit x
  | .regulate x => .regulate x

/-- An ordered REGULATE becomes DIODE (R121). -/
def Order.onWithdrawal : Order → Order
  | .regulate _ => .diode
  | .openPath => .openPath
  | .diode => .diode
  | .limit x => .limit x
  | .closed => .closed

/-- An ordered CLOSED becomes DIODE, and a REGULATE or LIMIT is capped (R122). -/
def Order.onHinge (cap : Int) : Order → Order
  | .closed => .diode
  | .regulate x => if hingeCapped cap x = 0 then .diode else .regulate (hingeCapped cap x)
  | .limit x => if hingeCapped cap x = 0 then .diode else .limit (hingeCapped cap x)
  | .openPath => .openPath
  | .diode => .diode

/-- A path's oldest input signal is taken from its list. -/
def State.dropPathSignal (s : State) (c : Cell) (rest : List InputSignal) : State :=
  s.setHanded { s.handed with pathSignal := s.handed.pathSignal.set c rest }

/-- PATH_INPUT_GRANTED (R120). -/
def execPathInputGranted (c : Cell) (s : State) : Result :=
  match s.handed.pathSignal.get c with
  | .granted :: rest =>
    .next ((s.dropPathSignal c rest).orderPath c (s.path.get c).ordered.onGrant)
  | .withdrawn :: _ => .next s
  | [] => .next s

/-- PATH_INPUT_WITHDRAWN (R121). -/
def execPathInputWithdrawn (c : Cell) (s : State) : Result :=
  match s.handed.pathSignal.get c with
  | .withdrawn :: rest =>
    .next ((s.dropPathSignal c rest).orderPath c (s.path.get c).ordered.onWithdrawal)
  | .granted :: _ => .next s
  | [] => .next s

/-- PATH_HINGE_UNSETTLED (R122): the far path takes the hinge event. -/
def execPathHingeUnsettled (s : State) : Result :=
  match s.handed.pathHinge with
  | n + 1 =>
    .next ((s.setHanded { s.handed with pathHinge := n }).orderPath .far
      (s.path.far.ordered.onHinge (Limits.hingeCap s.tables.limits)))
  | 0 => .next s

/-- On the far path a HINGE_CAP write taken while the hinge is not settled recomputes the effective
state (R115). -/
def State.hingeCapWritten (s : State) : State := if s.hinge.settled then s else s.recompute .far

end Sys2Proof.Machine
end

