-- ==== Sys2Proof/Machine/Protect.lean ====
section
/-! DEFINITION. Machine/Protect.lean: protection (chapter 09): the conditions on a set, occurrences, trips, retry and the classes. -/

namespace Sys2Proof.Machine

/-- What a set says of a kind's condition: its set condition holds, its clear condition holds, or
neither (R156, R159, R160). -/
inductive Verdict where
  | sets
  | clears
  | keeps
  deriving DecidableEq, Repr

/-- A kind that reads one channel: nothing moves while the channel is unusable (R159). -/
def verdictOf (ok sets clears : Bool) : Verdict :=
  if !ok then .keeps else if sets then .sets else if clears then .clears else .keeps

/-- N-OV and F-OV (R156). -/
def ovVerdict (w : Words) (ok : Bool) (v : Int) : Verdict :=
  verdictOf ok (decide (Protect.vov w < v)) (decide (v < Protect.vov w - 100))

/-- N-UV and F-UV (R156). -/
def uvVerdict (w : Words) (ok : Bool) (v : Int) : Verdict :=
  verdictOf ok (decide (v < Protect.vuv w)) (decide (Protect.vuv w + 200 ≤ v))

/-- N-OT and F-OT (R156). -/
def otVerdict (w : Words) (ok : Bool) (t : Int) : Verdict :=
  verdictOf ok (decide (Protect.tot w < t)) (decide (t < Protect.tot w - 50))

/-- N-NTC and F-NTC (R160). -/
def ntcVerdict (ok : Bool) : Verdict := if ok then .clears else .sets

/-- F-SENSE (R160). -/
def senseVerdict (m : MeasSet) : Verdict :=
  let gap := m.value.vfn - m.value.vcf
  if !usable m.age.vcf then .sets
  else if !usable m.age.vfn then .keeps
  else if 500 < gap ∨ gap < -500 then .sets
  else if -300 ≤ gap ∧ gap ≤ 300 then .clears
  else .keeps

/-- What a set says of each kind's condition under the thresholds in force; the overcurrent kinds are
not evaluated on a set (R159, R160). -/
def setVerdict (w : Words) (m : MeasSet) : FaultKind → Verdict
  | .nOv => ovVerdict w (usable m.age.vcn) m.value.vcn
  | .fOv => ovVerdict w (usable m.age.vcf) m.value.vcf
  | .nUv => uvVerdict w (usable m.age.vcn) m.value.vcn
  | .fUv => uvVerdict w (usable m.age.vcf) m.value.vcf
  | .nOc => .keeps
  | .fOc => .keeps
  | .nOt => otVerdict w (usable m.age.tn) m.value.tn
  | .fOt => otVerdict w (usable m.age.tf) m.value.tf
  | .nNtc => ntcVerdict (usable m.age.tn)
  | .fNtc => ntcVerdict (usable m.age.tf)
  | .fSense => senseVerdict m
  | .dieOt =>
    verdictOf (usable m.age.tdie) (decide (1250 < m.value.tdie)) (decide (m.value.tdie < 1100))
  | .sysUv =>
    verdictOf (usable m.age.vsys) (decide (m.value.vsys < 3200)) (decide (3400 ≤ m.value.vsys))

/-- A set transition (R162): an occurrence that makes the condition active. -/
def FaultRecord.setTransition (r : FaultRecord) (cls : Int) (frame : Nat) : FaultRecord :=
  FaultRecord.judged ⟨true, true, r.inForce, countUpTo 255 r.count, frame⟩ cls

/-- A clear transition (R164). -/
def FaultRecord.clearTransition (r : FaultRecord) (cls : Int) : FaultRecord :=
  FaultRecord.judged { r with active := false } cls

/-- The verdict is a set transition of the record (R159). -/
def FaultRecord.rises (r : FaultRecord) (v : Verdict) : Bool := !r.active && v == .sets

/-- The record after a set's verdict (R159, R160). -/
def FaultRecord.onVerdict (r : FaultRecord) (cls : Int) (frame : Nat) (v : Verdict) : FaultRecord :=
  match v with
  | .sets => if r.active then r else r.setTransition cls frame
  | .clears => if r.active then r.clearTransition cls else r
  | .keeps => r

/-- Each occurrence queues a FAULT notice that names its kind (R174). -/
def State.notifyFaults (s : State) (ks : List FaultKind) : State :=
  ks.foldl (fun t k => t.notify (.fault (bit k.num))) s

/-- The kinds that take a set transition on a set (R161). -/
def risingKinds (p : PerFault FaultRecord) (w : Words) (m : MeasSet) : List FaultKind :=
  FaultKind.all.filter fun k => (p.get k).rises (setVerdict w m k)

/-- The records after a set (R161). -/
def recordsAfterSet (p : PerFault FaultRecord) (w : Words) (frame : Nat) (m : MeasSet) :
    PerFault FaultRecord :=
  PerFault.ofKind fun k =>
    (p.get k).onVerdict (Protect.classOf w k.num) frame (setVerdict w m k)

/-- Protection's one reaction to a set (R161): the records, the notices, one change for each receiver,
and a SYS-UV set transition to the transfer operation (R171). -/
def State.protectOn (s : State) (m : MeasSet) : State :=
  let w := s.tables.protect
  let t := (s.setFaults (recordsAfterSet s.prot.record w s.alloc.frame.number m)).notifyFaults
    (risingKinds s.prot.record w m)
  if (s.prot.record.sysUv).rises (setVerdict w m .sysUv) then
    t.setHanded { t.handed with transfer := t.handed.transfer ++ [.sysUv] }
  else t

/-- PROTECTION_SET_REACTION (R161). -/
def execProtectionSetReaction (s : State) : Result :=
  match s.handed.protSet with
  | m :: rest => .next ((s.setHanded { s.handed with protSet := rest }).protectOn m)
  | [] => .next s

/-- The record after a trip: a set transition, or a repeat occurrence (R166). -/
def FaultRecord.trip (r : FaultRecord) (cls : Int) (frame : Nat) : FaultRecord :=
  if r.active then { r with count := countUpTo 255 r.count, lastFrame := frame }
  else r.setTransition cls frame

/-- Protection takes a trip from a path (R166, R168). -/
def State.takeTrip (s : State) (c : Cell) : State :=
  let k := FaultKind.oc c
  let r := (s.prot.record.get k).trip (Protect.classOf s.tables.protect k.num) s.alloc.frame.number
  let t := s.setFaults (s.prot.record.set k r)
  (t.setProt
    { t.prot with
      retry := t.prot.retry.set c (some (tenths (Protect.retryMs s.tables.protect))) }).notify
    (.fault (bit k.num))

/-- |I| lies above ITRIP (R125). -/
def overTrip (itrip current : Int) : Bool := decide (itrip < current) || decide (current < -itrip)

/-- OVERCURRENT_TRIP (R125, R166): armed, not OPEN and above ITRIP, or no trip is issued. -/
def execOvercurrentTrip (c : Cell) (current : Int) (s : State) : Result :=
  let p := s.path.get c
  if p.armed && p.eff != .openPath && overTrip (s.factory.itrip c) current then
    .next ((s.setPath c { p with armed := false }).takeTrip c)
  else .next s

/-- TRIP_REARM (R126). -/
def execTripRearm (c : Cell) (current : Int) (s : State) : Result :=
  if overTrip (s.factory.itrip c) current then .next s
  else .next (s.setPath c { s.path.get c with armed := true })

/-- RETRY_TIMER_EXPIRY (R167): the timer has run out, or no expiry takes place; a trip taken first restarts
it (R168). -/
def execRetryTimerExpiry (c : Cell) (s : State) : Result :=
  if timeUp (s.prot.retry.get c) then
    let k := FaultKind.oc c
    let r := (s.prot.record.get k).clearTransition (Protect.classOf s.tables.protect k.num)
    let t := s.setFaults (s.prot.record.set k r)
    .next (t.setProt { t.prot with retry := t.prot.retry.set c none })
  else .next s

/-- Class words that come into force judge the in-force flag of each kind whose class changes (R165). -/
def State.setProtectWords (s : State) (new : Words) : State :=
  let old := s.tables.protect
  (s.setTables { s.tables with protect := new }).setFaults
    (PerFault.ofKind fun k =>
      let r := s.prot.record.get k
      if Protect.classOf old k.num = Protect.classOf new k.num then r
      else r.judged (Protect.classOf new k.num))

/-- The record after a FAULT-CLEAR that names its kind (R172). -/
def FaultRecord.clearLatch (r : FaultRecord) (cls : Int) : FaultRecord :=
  if r.active then r else FaultRecord.judged { r with latched := false } cls

/-- The records after a FAULT-CLEAR (R172). -/
def recordsAfterClear (p : PerFault FaultRecord) (w : Words) (mask : Word) : PerFault FaultRecord :=
  PerFault.ofKind fun k =>
    if hasBit mask k.num then (p.get k).clearLatch (Protect.classOf w k.num) else p.get k

/-- The kinds a FAULT-CLEAR leaves unchanged (R172). -/
def unchangedSet (p : PerFault FaultRecord) (mask : Word) : Word :=
  faultSet fun k => hasBit mask k.num && (p.get k).active

end Sys2Proof.Machine
end

