-- ==== Sys2Proof/Machine/StoreTables.lean ====
section
/-! DEFINITION. Machine/StoreTables.lean: words brought into the tables in force (R36, R108, R115, R165, R190), the pending copies and their promotion (R44 to R52), the slots and the store operation (R189 to R192). -/

namespace Sys2Proof.Machine

/-! ### Table words -/

/-- The sixteen bits of a table word (R212). -/
def toWord (x : Int) : Word := BitVec.ofInt 16 x

/-- The words of GAUGE: both CAP words, then the OCV table (R36, R212). -/
def State.gaugeWords (s : State) : Words := s.counter.near.cap :: s.counter.far.cap :: s.tables.ocv

/-- The words of a stored record's table: the active copy for ids 1..3, the words in force for ids 4..8
(R191). -/
def State.recordWords (s : State) : RecordId → Words
  | .profileN => s.tables.profile.near.active
  | .profileF => s.tables.profile.far.active
  | .bands => s.tables.bands.active
  | .limits => s.tables.limits
  | .balance => s.tables.balance
  | .protect => s.tables.protect
  | .calibration => s.tables.cal
  | .gauge => s.gaugeWords

/-- The fields of a table whose words do not bound one another (R13, R28, R40, R43, R157, R190). -/
def State.fieldsOf (s : State) : RecordId → List Field
  | .profileN => profileFields
  | .profileF => profileFields
  | .bands => bandFields
  | .limits => limitsFields
  | .balance => balanceFields (Balance.xferStart s.tables.balance)
  | .protect => protectFields s.factory.vmax
  | .calibration => calFields
  | .gauge => gaugeFields s.factory.dcapN s.factory.dcapF

/-- A table's words once words are brought in from an offset on, and whether an adjustment acted (R108,
R190). -/
def State.broughtIn (s : State) (r : RecordId) (offset : Nat) (words : List Word) : Words × Bool :=
  match r with
  | .balance => bringBalance s.tables.balance offset words
  | .profileN | .profileF | .bands | .limits | .protect | .calibration | .gauge =>
    ((s.recordWords r).splice offset (adjustWords (s.fieldsOf r) offset words),
      anyAdjusted (s.fieldsOf r) offset words)

/-- A CAP word comes into force for a cell where the words cover it (R36). -/
def capWritten (covered : Bool) (cap : Int) (r : CounterRecord) : CounterRecord :=
  if covered then r.setCap cap else r

/-- The words of GAUGE come into force (R36, R28). -/
def State.forceGauge (s : State) (offset n : Nat) (new : Words) : State :=
  { s with
    counter :=
      ⟨capWritten (covers offset n 0) (new.at 0) s.counter.near,
       capWritten (covers offset n 1) (new.at 1) s.counter.far⟩
    tables := { s.tables with ocv := new.drop 2 } }

/-- The words of LIMITS come into force; a HINGE_CAP among them acts on the far path at once (R115). -/
def State.forceLimits (s : State) (offset n : Nat) (new : Words) : State :=
  let t := s.setTables { s.tables with limits := new }
  if covers offset n Limits.hingeCapOffset then t.hingeCapWritten else t

/-- The words of a table 4..8 come into force together: n words from an offset on have been written, and
new is the whole table (R190). Ids 1..3 come into force by promotion alone (R47). -/
def State.force (s : State) (r : RecordId) (offset n : Nat) (new : Words) : State :=
  match r with
  | .profileN => s
  | .profileF => s
  | .bands => s
  | .limits => s.forceLimits offset n new
  | .balance => s.setTables { s.tables with balance := new }
  | .protect => s.setProtectWords new
  | .calibration => s.setTables { s.tables with cal := new }
  | .gauge => s.forceGauge offset n new

/-- Words brought into a table 4..8, adjusted and in force (R190). -/
def State.bring (s : State) (r : RecordId) (offset : Nat) (words : List Word) : State :=
  s.force r offset words.length (s.broughtIn r offset words).1

/-! ### Pending copies and promotion -/

/-- The copies of a table 1..3; none for the others (R39). -/
def State.copiesOf (s : State) : RecordId → Option Copies
  | .profileN => some s.tables.profile.near
  | .profileF => some s.tables.profile.far
  | .bands => some s.tables.bands
  | .limits => none
  | .balance => none
  | .protect => none
  | .calibration => none
  | .gauge => none

/-- The copies of a table 1..3 become the ones given. -/
def State.setCopies (s : State) (r : RecordId) (v : Copies) : State :=
  match r with
  | .profileN => s.setTables { s.tables with profile := { s.tables.profile with near := v } }
  | .profileF => s.setTables { s.tables with profile := { s.tables.profile with far := v } }
  | .bands => s.setTables { s.tables with bands := v }
  | .limits => s
  | .balance => s
  | .protect => s
  | .calibration => s
  | .gauge => s

/-- The first check that a table 1..3 fails, 0 when it passes (R48, R49). -/
def checkOf (f : Factory) (r : RecordId) (w : Words) : Nat :=
  match r with
  | .profileN => profileCheck f.vmax f.imaxN w
  | .profileF => profileCheck f.vmax f.imaxF w
  | .bands => bandsCheck w
  | .limits => 0
  | .balance => 0
  | .protect => 0
  | .calibration => 0
  | .gauge => 0

/-- Words written into a pending copy: any word makes it EDITING (R44, R46). -/
def Copies.write (k : Copies) (fields : List Field) (offset : Nat) (words : List Word) : Copies :=
  if words.isEmpty then k
  else
    { k with pending := k.pending.splice offset (adjustWords fields offset words), editing := true }

/-- The promotion event of a copy that has become active is handed to the sequencers that read the table
(R51). -/
def Handed.promotion (h : Handed) (r : RecordId) (w : Words) : Handed :=
  match r with
  | .profileN =>
    { h with
      seqPromotion := { h.seqPromotion with near := h.seqPromotion.near ++ [.profile w] } }
  | .profileF =>
    { h with seqPromotion := { h.seqPromotion with far := h.seqPromotion.far ++ [.profile w] } }
  | .bands => { h with seqPromotion := h.seqPromotion.map (· ++ [.bands w]) }
  | .limits => h
  | .balance => h
  | .protect => h
  | .calibration => h
  | .gauge => h

/-- Steps 2 to 5 of a promotion attempt on a pending copy (R47, R52). -/
def State.promote (s : State) (r : RecordId) (k : Copies) (source : ProfileSource) : State :=
  let check := checkOf s.factory r k.pending
  if check = 0 then
    let t := s.setCopies r ⟨k.pending, k.pending, false⟩
    (t.setHanded (t.handed.promotion r k.pending)).notify (.profile r.num true 0 source)
  else
    (s.setCopies r { k with editing := true }).notify (.profile r.num false check source)

/-- The pending copy is made equal to the active copy, CLEAN (R56). -/
def Copies.discard (k : Copies) : Copies := cleanCopies k.active

/-! ### Slots -/

/-- The sum of words, modulo 65536 (R189). -/
def wordSum (ws : List Word) : Word := ws.foldl (· + ·) 0

/-- The slot that a record write leaves: the check word is chosen so that it passes (R192). -/
def writtenSlot (r : RecordId) (ws : List Word) : Slot :=
  let id := BitVec.ofNat 16 r.num
  let count := BitVec.ofNat 16 ws.length
  ⟨id, count, ws, 0 - (id + count + wordSum ws)⟩

/-- The slot passes its checksum (R189). -/
def slotPasses (r : RecordId) (sl : Slot) : Bool :=
  sl.id == BitVec.ofNat 16 r.num && sl.count == BitVec.ofNat 16 r.length
    && sl.id + sl.count + wordSum sl.words + sl.check == 0

/-- The snapshot's words for a record (R191). -/
def snapshotWords (snap : List (RecordId × List Word)) (r : RecordId) : List Word :=
  ((snap.find? fun p => p.1 == r).map (·.2)).getD []

/-- The write of a record begins: its slot is erased (R192). -/
def Store.beginWrite (st : Store) (r : RecordId) : Store :=
  { st with slots := st.slots.set r (erasedSlot r) }

/-- The write of a record ends: its slot holds the snapshot and passes (R192, step 1). -/
def Store.endWrite (st : Store) (w : Writing) : Store :=
  { st with
    slots := st.slots.set w.inFlight (writtenSlot w.inFlight (snapshotWords w.snapshot w.inFlight)) }

/-- RECORD_COMPLETION (R192): only in WRITING. -/
def execRecordCompletion (s : State) : Result :=
  match s.store.state with
  | .writing w =>
    let st := s.store.endWrite w
    let done := w.completed ++ [w.inFlight]
    match w.cancel, w.todo with
    | false, next :: rest =>
      .next (s.setStore
        ({ st with
           state := .writing { w with inFlight := next, todo := rest, completed := done } }.beginWrite
          next))
    | _, _ =>
      .next ((s.setStore { st with state := .idle }).notify (.store (recordSet done) w.cancel))
  | .idle => .next s

/-- The words of the named records, as sixteen bits each (R191, step 1). -/
def State.snapshot (s : State) (rs : List RecordId) : List (RecordId × List Word) :=
  rs.map fun r => (r, (s.recordWords r).map toWord)

/-- An accepted STORE (R191). An empty set of records starts nothing. -/
def State.startStore (s : State) (rs : List RecordId) : State :=
  match rs with
  | [] => s
  | r :: rest =>
    s.setStore
      ({ s.store with state := .writing ⟨r, rest, [], false, s.snapshot (r :: rest)⟩ }.beginWrite r)

/-! ### Loading -/

/-- What a LOAD has done so far (R195). -/
structure LoadOutcome where
  state : State
  loaded : List RecordId
  bad : List RecordId
  checks : List (RecordId × Nat)

/-- One named record of a LOAD (R54, R195). -/
def LoadOutcome.take (o : LoadOutcome) (r : RecordId) : LoadOutcome :=
  let sl := o.state.store.slots.get r
  if slotPasses r sl then
    match o.state.copiesOf r with
    | some k =>
      let k' := k.write (o.state.fieldsOf r) 0 sl.words
      { o with
        state := o.state.promote r k' .load
        loaded := o.loaded ++ [r]
        checks := o.checks ++ [(r, checkOf o.state.factory r k'.pending)] }
    | none => { o with state := o.state.bring r 0 sl.words, loaded := o.loaded ++ [r] }
  else { o with bad := o.bad ++ [r] }

/-- The named records of a LOAD, in ascending id (R195). -/
def State.loadRecords (s : State) (rs : List RecordId) : LoadOutcome :=
  rs.foldl LoadOutcome.take ⟨s, [], [], []⟩

/-- The check number of a record's attempt, 0 where none was made (R195). -/
def LoadOutcome.checkOf (o : LoadOutcome) (r : RecordId) : Nat :=
  ((o.checks.find? fun p => p.1 == r).map (·.2)).getD 0

end Sys2Proof.Machine
end

