-- ==== Sys2Proof/Machine/Replies.lean ====
section
/-! DEFINITION. Machine/Replies.lean: the reply frames and their bodies, byte for byte (R200, R212). -/

namespace Sys2Proof.Machine

/-! ### Pieces -/

/-- A number as two bytes (R212). -/
def w16 (x : Int) : List Byte := le16 (toWord x)

/-- A number as four bytes (R212). -/
def w32 (x : Int) : List Byte := le32 (BitVec.ofInt 32 x)

/-- A number as one byte. -/
def w8 (n : Nat) : Byte := BitVec.ofNat 8 n

/-- A reply frame: KIND, TAG, STATUS, LEN, body, CHK (R200, R212). -/
def replyFrame (kind tag : Byte) (st : Status) (body : List Byte) : List Byte :=
  let front := kind :: tag :: st.code :: BitVec.ofNat 8 body.length :: body
  front ++ [0 - byteSum front]

/-- The NONE reply (R200). -/
def noneReply : List Byte := replyFrame 0x00 0x00 .ok []

/-- The time left on a timer in whole milliseconds, 0 when it is stopped; a part of a millisecond shows
as the free value says (log 4). -/
def msLeft (fld : TimerField) (fresh : Nat) (t : Option Nat) : Nat :=
  match t with
  | none => 0
  | some n => n / 10 + (if n % 10 != 0 && Config.partMsCounts fld fresh then 1 else 0)

/-- A value, or what a field without one holds (log 5). -/
def w16Or (f : AbsentField) (fresh : Nat) (x : Option Int) : List Byte :=
  match x with
  | some v => w16 v
  | none => le16 (Config.absent f fresh)

/-! ### Notice payloads (R212) -/

/-- FOLD-A is bit 0 and FOLD-B bit 1. -/
def foldLevels (a b : Bool) : Byte := flagCode a ||| (if b then 2 else 0)

/-- The bytes of a notice's payload. -/
def Payload.bytes : Payload → List Byte
  | .powerup cause => [cause.code]
  | .input after before reasons ilim sd =>
    [after.code, before.code, reasons.code] ++ w16 ilim ++ w16 sd
  | .charge _ state k full band reasons => [state.code, w8 k, full.code, w8 band, reasons.code]
  | .fault kinds => le16 kinds
  | .transfer cause donor receiver moved frames =>
    [cause.code, cellCodeOr donor, cellCodeOr receiver] ++ w32 moved ++ w16 frames
  | .hinge position settled a b conflicts =>
    [position.code, flagCode settled, foldLevels a b, flagCode (position == .conflict), w8 conflicts]
  | .profile table promoted check source =>
    [w8 table, flagCode (!promoted), w8 check, source.code]
  | .store completed cancelled => le16 completed ++ [flagCode cancelled]
  | .defaulted ids => le16 ids
  | .reverted => []
  | .learn c accepted l cap => [cellCode c, flagCode (!accepted)] ++ w16 l ++ w16 cap

/-! ### Record requests (R208, R209) -/

/-- IDENTIFY (R208). -/
def State.identifyBody (s : State) : List Byte :=
  w16 s.factory.family ++ [w8 s.factory.revision, w8 s.factory.linkAddr] ++ le16 s.store.defaulted

/-- The edit states of the pending copies, bits 0..2 for ids 1..3. -/
def State.editBits (s : State) : Byte :=
  flagCode s.tables.profile.near.editing ||| (if s.tables.profile.far.editing then 2 else 0)
    ||| (if s.tables.bands.editing then 4 else 0)

/-- R212. -/
def StoreState.code : StoreState → Byte
  | .idle => 0
  | .writing _ => 1

/-- STATUS (R208). -/
def State.statusBody (s : State) : List Byte :=
  w16 s.alloc.frame.number ++ [s.alloc.frame.mode.code, s.input.state.code, s.input.reasons.code]
    ++ [s.seq.near.state.code, s.seq.far.state.code] ++ w16 (s.soc .near) ++ w16 (s.soc .far)
    ++ [s.path.near.restriction.code, s.path.far.restriction.code]
    ++ [foldLevels s.hinge.foldA.level s.hinge.foldB.level, s.hinge.position.code,
        flagCode s.hinge.settled]
    ++ w16 (msLeft .settle s.fresh s.hinge.settle)
    ++ [w8 s.hinge.conflicts, flagCode s.alloc.transfer.active, s.store.state.code, s.editBits,
        w8 s.link.queue.length]
    ++ w32 (msLeft .supervisor s.fresh s.link.supervisor)

/-- MEASURE, section VALUES (R209). -/
def State.measureValues (s : State) : List Byte :=
  w16 s.meas.setDt ++ (s.meas.chan.toList.map fun r => w16 r.value ++ [w8 r.age]).flatten
    ++ w16 s.meas.rflex ++ [flagCode s.meas.flexValid]

/-- MEASURE, section RAW (R209). -/
def State.measureRaw (s : State) : List Byte := (s.meas.chan.toList.map fun r => w16 r.raw).flatten

/-- The byte of the table that the latest seed used (R212). -/
def seedTableCode : Option SeedNote → Byte
  | none => 0xFF
  | some n => if n.usedDefault then 0 else 1

/-- CELL, section GAUGE (R37, R209). -/
def State.gaugeBody (s : State) (c : Cell) : List Byte :=
  let r := s.counter.get c
  w32 r.q ++ w16 r.residue ++ w16 r.soc ++ w16 r.cap ++ w16 (capLo (s.factory.dcap c))
    ++ w16 (capHi (s.factory.dcap c)) ++ [r.learning.code] ++ w32 r.a ++ [r.seed.code]
    ++ w16Or .seedVoltage s.fresh (r.note.map (·.voltage)) ++ w16Or .seedS s.fresh (r.note.map (·.s))
    ++ [seedTableCode r.note] ++ w16 r.lastWhole

/-- VSTEP_eff of stage i, 0 beyond NSTAGE (R209). -/
def State.vstepShown (s : State) (c : Cell) (i : Nat) : Int :=
  let e := s.seqEnv c
  if i ≤ Profile.nstage e.prof then Seq.vstepEff e (s.seq.get c) i else 0

/-- CELL, section SEQUENCER (R80, R209). -/
def State.sequencerBody (s : State) (c : Cell) : List Byte :=
  let r := s.seq.get c
  let e := s.seqEnv c
  [r.state.code, w8 r.k, r.full.code, w8 r.band, r.reasons.code, w8 r.adv, w8 r.term]
    ++ w32 r.pre ++ w32 r.fast ++ w16 r.demand ++ w16 r.ceiling ++ w16 (Seq.vfullEff e r)
    ++ ([1, 2, 3, 4, 5].map fun i => w16 (s.vstepShown c i)).flatten ++ w16 (Seq.taperMax e r)
    ++ w16 (r.bandT.getD (-32768)) ++ [flagCode r.coupled] ++ w16 r.lastGrant

/-- CELL, section PATH (R127, R209). -/
def State.pathBody (s : State) (c : Cell) : List Byte :=
  let p := s.path.get c
  [p.ordered.code] ++ w16Or .orderedValue s.fresh p.ordered.value
    ++ [p.restriction.code, p.eff.code] ++ w16 p.eff.target
    ++ [w8 (msLeft .ramp s.fresh p.ramp), flagCode p.armed]

/-- The transfer record, as BALANCE gives it (R100, R212). -/
def State.transferBytes (s : State) : List Byte :=
  let t := s.alloc.transfer
  [flagCode t.active, cellCodeOr t.donor, cellCodeOr t.receiver] ++ w16 t.current ++ w32 t.moved
    ++ w16 t.frames ++ [t.lastEnd.code] ++ w16 t.cooldown

/-- BALANCE (R100). -/
def State.balanceBody (s : State) : List Byte := flagCode s.alloc.enable :: s.transferBytes

/-- An order and its value, as the frame record holds them. -/
def State.orderBytes (s : State) (f : AbsentField) (o : Order) : List Byte :=
  o.code :: w16Or f s.fresh o.value

/-- ALLOCATION (R109). -/
def State.allocationBody (s : State) : List Byte :=
  let f := s.alloc.frame
  w16 f.number ++ [f.mode.code] ++ w16 f.ilim ++ w16 f.sd ++ w16 f.vbus ++ w16 f.vsys ++ w16 f.iload
    ++ w16 f.soc.near ++ w16 f.soc.far ++ w16 f.demand.near ++ w16 f.demand.far ++ w16 f.capOut
    ++ w16 f.headroom ++ w16 f.capped.near ++ w16 f.capped.far ++ w16 f.wN ++ w16 f.grant.near
    ++ w16 f.grant.far ++ w16Or .dischargeLimit s.fresh (f.limit.map (·.2))
    ++ [cellCodeOr (f.limit.map (·.1))] ++ s.orderBytes .nearFrameOrder f.order.near
    ++ s.orderBytes .farFrameOrder f.order.far ++ [flagCode f.transferActive] ++ s.transferBytes
    ++ [flagCode s.alloc.enable]

/-- The kinds whose condition is active (R175). -/
def State.activeSet (s : State) : Word := faultSet fun k => (s.prot.record.get k).active

/-- The latched kinds (R172, R175). -/
def State.latchedSet (s : State) : Word := faultSet fun k => (s.prot.record.get k).latched

/-- The kinds whose action is in force (R172, R175). -/
def State.inForceSet (s : State) : Word := faultSet fun k => (s.prot.record.get k).inForce

/-- FAULTS, section SUMMARY (R175, R209). -/
def State.faultSummary (s : State) : List Byte :=
  le16 s.activeSet ++ le16 s.latchedSet ++ le16 s.inForceSet
    ++ (FaultKind.all.map fun k => BitVec.ofInt 8 (Protect.classOf s.tables.protect k.num))
    ++ w16 (msLeft .retryN s.fresh s.prot.retry.near) ++ w16 (msLeft .retryF s.fresh s.prot.retry.far)
    ++ [s.path.near.restriction.code, s.path.far.restriction.code, flagCode s.input.reasons.die]

/-- FAULTS, section HISTORY (R209). -/
def State.faultHistory (s : State) : List Byte :=
  (FaultKind.all.map fun k => w8 (s.prot.record.get k).count)
    ++ (FaultKind.all.map fun k => w16 (s.prot.record.get k).lastFrame).flatten

/-! ### The other bodies -/

/-- INPUT-LIMIT and INPUT-SUSPEND (R140, R142). -/
def State.inputBody (s : State) : List Byte :=
  w16 s.input.ilim ++ w16 s.input.vfloor ++ w16 s.input.sd ++ [s.input.state.code, s.input.reasons.code]

/-- CEILING (R78). -/
def State.ceilingBody (s : State) : List Byte := w16 s.seq.near.ceiling ++ w16 s.seq.far.ceiling

/-- INHIBIT (R180). -/
def State.inhibitBody (s : State) (blocking : Byte) : List Byte :=
  [s.inhibit.near, s.inhibit.far, blocking]

/-- FAULT-CLEAR (R172). -/
def State.faultClearBody (s : State) (unchanged : Word) : List Byte :=
  le16 unchanged ++ le16 s.latchedSet ++ le16 s.inForceSet

/-- CHARGE-RESTART (R77). -/
def State.restartBody (s : State) : List Byte :=
  let one (r : SeqRecord) : List Byte := [r.state.code, w8 r.k] ++ w32 r.pre ++ w32 r.fast
  one s.seq.near ++ one s.seq.far

/-- GAUGE-SEED (R31). -/
def State.seedBody (s : State) : List Byte := [s.counter.near.seed.code, s.counter.far.seed.code]

/-- STORE and STORE-CANCEL (R191, R193). In IDLE no record is in flight and none is still to be written; the
completed set and the cancel flag are free (log 45). -/
def State.storeBody (s : State) : List Byte :=
  match s.store.state with
  | .idle => [0, 0] ++ le16 0 ++ le16 (Config.idleStore s.fresh).1 ++ [(Config.idleStore s.fresh).2]
  | .writing w =>
    [1, w8 w.inFlight.num] ++ le16 (recordSet w.todo) ++ le16 (recordSet w.completed)
      ++ [flagCode w.cancel]

/-- NOTICE-MASK (R202). -/
def State.maskBody (s : State) : List Byte := le16 s.link.enabled ++ [w8 s.link.queue.length]

/-! ### Tables (R210) -/

/-- The words of the factory block (R212). -/
def factoryWords (f : Factory) : Words :=
  [f.dcapN, f.dcapF, f.vmax, f.imaxN, f.imaxF, f.itripN, f.itripF, f.idisMax, f.linkAddr,
   f.attachFilter, f.hingeFilter, if f.bootHold then 1 else 0, f.family, f.revision]

/-- The words that a table id gives: ids 1..3 the pending copy, ids 11..13 the active one (R53). -/
def State.tableWords (s : State) : TableId → Words
  | .record .profileN => s.tables.profile.near.pending
  | .record .profileF => s.tables.profile.far.pending
  | .record .bands => s.tables.bands.pending
  | .record .limits => s.tables.limits
  | .record .balance => s.tables.balance
  | .record .protect => s.tables.protect
  | .record .calibration => s.tables.cal
  | .record .gauge => s.gaugeWords
  | .factory => factoryWords s.factory
  | .activeProfile c => (s.tables.profile.get c).active
  | .activeBands => s.tables.bands.active

/-- The length of a table (R212). -/
def TableId.length : TableId → Nat
  | .record r => r.length
  | .factory => 14
  | .activeProfile _ => 18
  | .activeBands => 19

/-- The edit state a reply carries: the pending copy's for ids 1..3, CLEAN for every other id (R210). -/
def State.editCode (s : State) : TableId → Byte
  | .record r => flagCode (((s.copiesOf r).map (·.editing)).getD false)
  | .factory => 0
  | .activeProfile _ => 0
  | .activeBands => 0

end Sys2Proof.Machine
end

