-- ==== Sys2Proof/Machine/Link.lean ====
section
/-! DEFINITION. Machine/Link.lean: the message link (chapter 12): taking a write or a read transaction, the held reply, the supervisor, the revert, the notice requests and SOFT-RESET. -/

namespace Sys2Proof.Machine

/-! ### Transactions and replies -/

/-- What carrying out a request gives (R199). -/
structure Answer where
  state : State
  status : Status
  body : List Byte

/-- A reply frame is held, in place of any other (R199). The free values a reply holds are used up. -/
def State.holdReply (s : State) (bytes : List Byte) : State :=
  (s.setLink { s.link with reply := some bytes }).setFresh (s.fresh + 1)

/-- The supervisor as a restart leaves it: RUNNING with HOST_TIMEOUT seconds, or STOPPED for 0 (R204). -/
def supervisorTime (timeout : Nat) : Option Nat :=
  if timeout = 0 then none else some (tenths (1000 * timeout))

/-- The supervisor restarts, under the HOST_TIMEOUT in force (R204). -/
def State.restartSupervisor (s : State) : State :=
  s.setLink { s.link with supervisor := supervisorTime (Limits.hostTimeout s.tables.limits) }

/-- The reply of an answer is formed and held, and the supervisor restarts (R199, R204). -/
def Answer.reply (a : Answer) (kind tag : Byte) : State :=
  (a.state.holdReply (replyFrame kind tag a.status a.body)).restartSupervisor

/-- A well-formed request is taken. Before the completion of the power-on load the port does not
acknowledge its address and nothing reaches the link (R197). -/
def State.request (s : State) (k : RequestKind) (tag : Byte) (act : State → Answer) : Result :=
  if s.phase = .running then .next ((act s).reply k.code tag) else .next s

/-- A request that changes nothing and is taken with OK. -/
def State.shows (s : State) (body : List Byte) : Answer := ⟨s, .ok, body⟩

/-- A request refused with BADARG, with its reply body. -/
def State.badArg (s : State) (body : List Byte) : Answer := ⟨s, .badArg, body⟩

/-- EMPTY_WRITE (R197). -/
def execEmptyWrite (s : State) : Result := .next s

/-- BAD_REQUEST_FRAME (R198): REJECT with status FRAME; the supervisor does not restart. -/
def execBadRequestFrame (bytes : List Byte) (s : State) : Result :=
  if s.phase = .running then
    .next (s.holdReply (replyFrame 0x7F (bytes.getD 1 0) .frame []))
  else .next s

/-- UNKNOWN_REQUEST (R198). -/
def execUnknownRequest (kind tag : Byte) (_body : List Byte) (s : State) : Result :=
  if s.phase = .running then .next (Answer.reply ⟨s, .unknown, []⟩ kind tag) else .next s

/-- LENGTH_ERROR (R198). -/
def execLengthError (kind tag : Byte) (_body : List Byte) (s : State) : Result :=
  if s.phase = .running then .next (Answer.reply ⟨s, .length, []⟩ kind tag) else .next s

/-- The bytes a read of this many gives: the frame, then 0x00 past its end (R200). -/
def readBytes (frame : List Byte) (count : Nat) : List Byte :=
  (frame ++ List.replicate count 0).take count

/-- READ_REPLY (R200): the held reply is released as the read begins; in IDLE a NONE reply is given. -/
def execReadReply (count : Nat) (s : State) : Result :=
  if s.phase = .running then
    .next (s.setLink
      { s.link with
        reply := none
        lastRead := readBytes (s.link.reply.getD noneReply) count })
  else .next s

/-! ### Inhibit sets and ceilings -/

/-- A change of an inhibit set is handed to the cell's sequencer, and a set that becomes non-empty to the
transfer operation (R179). -/
def Handed.inhibitChange (h : Handed) (c : Cell) (old new : Byte) : Handed :=
  { h with
    seqInhibit := h.seqInhibit.set c (h.seqInhibit.get c ++ [new != 0])
    transfer := if old = 0 then h.transfer ++ [.inhibit c] else h.transfer }

/-- The inhibit set of a cell becomes the one given; the same set is no change (R178, R179). -/
def State.setInhibitSet (s : State) (c : Cell) (new : Byte) : State :=
  if new = s.inhibit.get c then s
  else
    (s.setInhibit c new).setHanded (s.handed.inhibitChange c (s.inhibit.get c) new)

/-- The record with the ceiling given, after the ceiling test that a change takes at once (R71, R78). -/
def Seq.setCeiling (e : SeqEnv) (v : Int) (r : SeqRecord) : SeqRecord :=
  if r.ceiling = v then r
  else
    let new := { r with ceiling := v }
    if Seq.ceilingMet e new then Seq.toFull .ceiling new else new

/-- The ceiling of a cell becomes the one given (R78). -/
def State.setCeiling (s : State) (v : Int) (c : Cell) : State :=
  s.updateSeq c (Seq.setCeiling (s.seqEnv c) v (s.seq.get c))

/-! ### The revert (R205) -/

/-- ILIM and VFLOOR become their defaults (R145). -/
def State.revertSettings (s : State) : State :=
  (s.setIlim (Limits.ilimDefault s.tables.limits)).setVfloor (Limits.vfloorDefault s.tables.limits)

/-- HOST is removed from the suspend reasons, and the state follows (R136, R145). -/
def State.revertHost (s : State) : State := s.setReasons { s.input.reasons with host := false }

/-- Taking HOST out of the suspend reasons makes the input ACTIVE. -/
def State.revertResumes (s : State) : Bool :=
  s.input.state == .suspended && s.input.reasons.any && !s.input.reasons.die

/-- The input stage's part (R145). Which of its actions comes first shows in the ILIM of the INPUT notice of a
return to ACTIVE alone, and is a free value there (log 44). -/
def State.revertInput (s : State) : State :=
  if s.revertResumes && Config.hostReasonFirst s.fresh then s.revertHost.revertSettings
  else s.revertSettings.revertHost

/-- The sequencers' part: both ceilings 1000 (R78). -/
def State.revertCeilings (s : State) : State := (s.setCeiling 1000 .near).setCeiling 1000 .far

/-- The inhibit sets' part: both empty (R187). -/
def State.revertInhibits (s : State) : State := (s.setInhibitSet .near 0).setInhibitSet .far 0

/-- A transfer that the revert ends: in progress, with XFER_EN 0 (R110). -/
def State.revertEnds (s : State) : Bool :=
  s.alloc.transfer.active && !Balance.xferEn s.tables.balance

/-- The allocator's part: the enable becomes XFER_EN, and an enable of 0 ends a transfer (R110). -/
def State.revertTransfer (s : State) (cause : EndCause) : State :=
  let t := s.setAlloc { s.alloc with enable := Balance.xferEn s.tables.balance }
  if Balance.xferEn s.tables.balance then t else t.endTransferOnEvent cause

/-- The allocator's part after the input stage has issued input granted: where the transfer operation takes
a grant before it, the grant is gone from what waits and the transfer ends with INPUT (R105, R137, log 30). -/
def State.revertTransferAfterGrant (s : State) (grantFirst : Bool) : State :=
  match (if grantFirst then s.handed.takeEvent .inputGranted else none) with
  | some h => (s.setHanded h).revertTransfer .input
  | none => s.revertTransfer .host

/-- The actions at the input stage and at the transfer operation, in the order the free value gives where
both would queue a notice (log 30). -/
def State.revertInputAndTransfer (s : State) : State :=
  if s.revertEnds && s.revertResumes && Config.revertInputFirst s.fresh then
    s.revertInput.revertTransferAfterGrant (Config.revertGrantFirst s.fresh)
  else (s.revertTransfer .host).revertInput

/-- The revert (R205). -/
def State.revert (s : State) : State :=
  let t := s.revertInputAndTransfer.revertCeilings.revertInhibits
  t.setFresh (t.fresh + 1)

/-- SUPERVISOR_EXPIRY (R204, R205): the supervisor's time has run out, or no expiry takes place; a request
taken first restarts it (R187). -/
def execSupervisorExpiry (s : State) : Result :=
  if timeUp s.link.supervisor then
    .next ((s.setLink { s.link with supervisor := none }).notify .reverted).revert
  else .next s

/-! ### Notice requests -/

/-- The reply body of NOTICE-FETCH for the queue as it stands (R203). -/
def fetchBody : List Entry → List Byte
  | [] => [0, 0] ++ w16 0 ++ [0]
  | e :: rest => [w8 e.payload.kind, w8 e.count] ++ w16 e.frame ++ [w8 rest.length] ++ e.payload.bytes

/-- NOTICE-FETCH carried out (R203). -/
def State.fetchNotice (s : State) : Answer :=
  ⟨s.setLink { s.link with queue := s.link.queue.tail }, .ok, fetchBody s.link.queue⟩

/-- NOTICE_FETCH (R203). -/
def execNoticeFetch (tag : Byte) (s : State) : Result := s.request .noticeFetch tag State.fetchNotice

/-- NOTICE-MASK READ carried out; any other function value without a row of its own is refused (R202,
log 19, log 20). -/
def State.readMask (func : Byte) (s : State) : Answer :=
  if func = 0 then s.shows s.maskBody else s.badArg s.maskBody

/-- NOTICE_MASK_READ (R202). -/
def execNoticeMaskRead (tag func : Byte) (_enabled : Word) (s : State) : Result :=
  s.request .noticeMask tag (State.readMask func)

/-- The link with the enabled set replaced: the entries of masked kinds are removed (R202). -/
def Link.setMask (l : Link) (enabled : Word) : Link :=
  { l with
    enabled := enabled
    queue := l.queue.filter fun e => hasBit enabled e.payload.kind }

/-- NOTICE-MASK WRITE carried out (R202). -/
def State.writeMask (enabled : Word) (s : State) : Answer :=
  if maskWithin 1 12 enabled then
    let t := s.setLink (s.link.setMask enabled)
    t.shows t.maskBody
  else s.badArg s.maskBody

/-- NOTICE_MASK_WRITE (R202). -/
def execNoticeMaskWrite (tag : Byte) (enabled : Word) (s : State) : Result :=
  s.request .noticeMask tag (State.writeMask enabled)

/-! ### SOFT-RESET -/

/-- Both copies of every table 1..3 alike, CLEAN (R56). -/
def Tables.discardPending (t : Tables) : Tables :=
  { t with profile := t.profile.map Copies.discard, bands := t.bands.discard }

/-- The pending copies of PROFILE-N, PROFILE-F and BANDS are discarded (R56). -/
def State.discardPending (s : State) : State := s.setTables s.tables.discardPending

/-- Steps 1 and 2 of a soft reset: the queue is emptied, every kind is enabled, and POWERUP is queued
(R206). -/
def State.reopenQueue (s : State) : State :=
  (s.setLink { s.link with queue := [], enabled := allKinds }).notify (.powerup .softReset)

/-- SOFT-RESET carried out (R206). -/
def State.softReset (s : State) : Answer := s.reopenQueue.revert.discardPending.shows []

/-- SOFT_RESET (R206). -/
def execSoftReset (tag : Byte) (s : State) : Result := s.request .softReset tag State.softReset

/-! ### The host's write transaction -/

/-- The part's own address on the port (R197). -/
def State.addressed (s : State) (address : BitVec 7) : Bool := address.toNat == s.factory.linkAddr

/-- The port acknowledges the address: it is the part's own, and the power-on load is complete (R197). -/
def State.acknowledges (s : State) (address : BitVec 7) : Bool :=
  s.addressed address && s.phase == .running

/-- The command of a transaction to an address waits last in the queue; one to another address does not
reach the part. Whether the load is complete is asked as the command is taken (R197, log 27). -/
def State.transaction (s : State) (address : BitVec 7) (i : Instr) : State :=
  if s.addressed address then { s with pending := s.pending ++ [i] } else s

/-- The host sends a write transaction with these data bytes to an address (R197). -/
def State.hostWrite (s : State) (address : BitVec 7) (bytes : List Byte) : State :=
  s.transaction address (decodeWrite bytes)

/-- The host sends a read transaction of this many bytes to an address (R197, R200). -/
def State.hostRead (s : State) (address : BitVec 7) (count : Nat) : State :=
  s.transaction address (.readReply count)

end Sys2Proof.Machine
end

