-- ==== Sys2Proof/Machine/PowerCycle.lean ====
section
/-! DEFINITION. Machine/PowerCycle.lean: power-on reset, the power-on load and its completion (R18, R38, R55, R81, R110, R128, R144, R155, R176, R186, R194, R196, R207). -/

namespace Sys2Proof.Machine

/-- POWER_ON_RESET: every block takes its power-on values. What stays is the factory block, the slots,
the defaulted set until the next load, and the raw levels, which the outside makes. A round or a store
operation in flight is abandoned; the slot in flight stays erased (R6, R194, log 12). -/
def State.powerOn (s : State) : State where
  factory := s.factory
  phase := .reset
  meas := powerOnMeas
  counter := ⟨powerOnCounter s.factory.dcapN, powerOnCounter s.factory.dcapF⟩
  tables := powerOnTables s.factory
  seq := PerCell.both (powerOnSeq s.factory.bootHold)
  seen := seenAtStart (powerOnTables s.factory)
  alloc := powerOnAlloc
  path := PerCell.both powerOnPath
  input := powerOnInput s.input.present.raw s.input.ov.raw
  hinge := powerOnHinge s.hinge.foldA.raw s.hinge.foldB.raw
  prot := powerOnProtection
  inhibit := powerOnInhibit s.factory.bootHold
  store := { s.store with state := .idle }
  link := powerOnLink
  handed := nothingHanded
  fresh := s.fresh
  pending := s.pending

/-- POWER_ON_RESET (R18). -/
def execPowerOnReset (s : State) : Result := .next s.powerOn

/-- The defaults of a stored record's table (R43, R45, R190). -/
def defaultWords (f : Factory) : RecordId → Words
  | .profileN => defaultProfile f.vmax f.imaxN
  | .profileF => defaultProfile f.vmax f.imaxF
  | .bands => defaultBands
  | .limits => defaultLimits
  | .balance => defaultBalance
  | .protect => defaultProtect
  | .calibration => defaultCal
  | .gauge => f.dcapN :: f.dcapF :: defaultOcv

/-- The table takes its defaults: active and pending alike for ids 1..3, in force for ids 4..8 (R55,
R196). -/
def State.takeDefaults (s : State) (r : RecordId) : State :=
  match s.copiesOf r with
  | some _ => s.setCopies r (cleanCopies (defaultWords s.factory r))
  | none => s.force r 0 r.length (defaultWords s.factory r)

/-- A state and the records that took their defaults. -/
structure LoadProgress where
  state : State
  defaulted : List RecordId

/-- One record of the power-on load: brought in when it passes, its defaults otherwise (R55, R196). The
words of a profile or band record are adjusted as they are brought in (log 32). -/
def LoadProgress.take (p : LoadProgress) (r : RecordId) : LoadProgress :=
  let sl := p.state.store.slots.get r
  let default : LoadProgress := ⟨p.state.takeDefaults r, p.defaulted ++ [r]⟩
  if slotPasses r sl then
    match p.state.copiesOf r with
    | some _ =>
      let w := adjustWords (p.state.fieldsOf r) 0 sl.words
      if checkOf p.state.factory r w = 0 then { p with state := p.state.setCopies r (cleanCopies w) }
      else default
    | none => { p with state := p.state.bring r 0 sl.words }
  else default

/-- The power-on load over the eight records, in ascending id (R196). -/
def State.powerOnLoad (s : State) : LoadProgress := RecordId.all.foldl LoadProgress.take ⟨s, []⟩

/-- The sequencers start with the active copies already in place (R55). -/
def State.startSequencers (s : State) : State :=
  s.setSeen
    ⟨{ s.seen.near with prof := s.tables.profile.near.active, bands := s.tables.bands.active },
     { s.seen.far with prof := s.tables.profile.far.active, bands := s.tables.bands.active }⟩

/-- POWER_ON_LOAD (R196): only between power-on reset and the load. -/
def execPowerOnLoad (s : State) : Result :=
  if s.phase = .reset then
    let p := s.powerOnLoad
    .next
      ((p.state.setStore { p.state.store with defaulted := recordSet p.defaulted }
        ).startSequencers.setPhase .loaded)
  else .next s

/-- The queue as the link opens: POWERUP, and DEFAULTED when its set is not empty (R196, R207). -/
def openingQueue (frame : Nat) (defaulted : Word) : List Entry :=
  ⟨.powerup .powerOn, 1, frame⟩ ::
    if defaulted = 0 then [] else [⟨.defaulted defaulted, 1, frame⟩]

/-- The input stage at the completion of the load: ILIM, VFLOOR and the two filters (R144). -/
def InputStage.afterLoad (r : InputStage) (limits : Words) (filter : Nat) : InputStage :=
  { r with
    ilim := ilimField.adjust (Limits.ilimDefault limits)
    vfloor := vfloorField.adjust (Limits.vfloorDefault limits)
    present := r.present.start filter
    ov := r.ov.start filter }

/-- The completion of the power-on load (R18, R110, R144, R155, R196, R207). -/
def State.openUp (s : State) : State :=
  { s with
    phase := .running
    meas := { s.meas with roundTimer := some (tenths (Limits.roundMs s.tables.limits)) }
    input := s.input.afterLoad s.tables.limits s.factory.attachFilter
    hinge := { s.hinge with startup := some s.hingeFilterTime }
    alloc := { s.alloc with enable := Balance.xferEn s.tables.balance }
    link := { powerOnLink with queue := openingQueue s.alloc.frame.number s.store.defaulted } }

/-- POWER_ON_LOAD_COMPLETION (R196): only after the load. -/
def execPowerOnLoadCompletion (s : State) : Result :=
  if s.phase = .loaded then .next s.openUp else .next s

end Sys2Proof.Machine
end

