-- ==== Sys2Proof/Machine/Requests.lean ====
section
/-! DEFINITION. Machine/Requests.lean: the requests that read the records and change the settings, the inhibit sets, the faults, the sequencers, the counters and the transfer (R31, R77, R78, R100, R109, R140, R142, R172, R175, R180 to R184, R208, R209). -/

namespace Sys2Proof.Machine

/-! ### Record requests -/

/-- IDENTIFY (R208). -/
def execIdentify (tag : Byte) (s : State) : Result :=
  s.request .identify tag fun t => t.shows t.identifyBody

/-- STATUS (R208). -/
def execStatus (tag : Byte) (s : State) : Result :=
  s.request .status tag fun t => t.shows t.statusBody

/-- MEASURE carried out (R209). -/
def State.measure (sect : Byte) (s : State) : Answer :=
  if sect = 0 then s.shows s.measureValues
  else if sect = 1 then s.shows s.measureRaw
  else s.badArg []

/-- MEASURE (R209). -/
def execMeasure (tag sect : Byte) (s : State) : Result := s.request .measure tag (State.measure sect)

/-- CELL carried out for a cell (R209). -/
def State.cellSection (c : Cell) (sect : Byte) (s : State) : Answer :=
  if sect = 0 then s.shows (s.gaugeBody c)
  else if sect = 1 then s.shows (s.sequencerBody c)
  else if sect = 2 then s.shows (s.pathBody c)
  else s.badArg []

/-- CELL carried out (R209). -/
def State.cellRecord (cell sect : Byte) (s : State) : Answer :=
  match cellOf cell with
  | some c => s.cellSection c sect
  | none => s.badArg []

/-- CELL (R209). -/
def execCell (tag cell sect : Byte) (s : State) : Result :=
  s.request .cell tag (State.cellRecord cell sect)

/-- ALLOCATION (R109, R209). -/
def execAllocation (tag : Byte) (s : State) : Result :=
  s.request .allocation tag fun t => t.shows t.allocationBody

/-- FAULTS carried out (R175, R209). -/
def State.faults (sect : Byte) (s : State) : Answer :=
  if sect = 0 then s.shows s.faultSummary
  else if sect = 1 then s.shows s.faultHistory
  else s.badArg []

/-- FAULTS (R175, R209). -/
def execFaults (tag sect : Byte) (s : State) : Result := s.request .faults tag (State.faults sect)

/-! ### The input -/

/-- A setting after an argument: 0 leaves it, any other value is adjusted (R140). -/
def settingAfter (f : Field) (old : Int) (arg : Word) : Int := if arg = 0 then old else f.adjust arg.toNat

/-- An argument that an adjustment changes (R140). -/
def argAdjusted (f : Field) (arg : Word) : Bool := arg != 0 && f.adjust arg.toNat != arg.toNat

/-- INPUT-LIMIT carried out (R140). -/
def State.inputLimit (ilim vfloor : Word) (s : State) : Answer :=
  let t := s.setInput
    { s.input with
      ilim := settingAfter ilimField s.input.ilim ilim
      vfloor := settingAfter vfloorField s.input.vfloor vfloor }
  ⟨t, if argAdjusted ilimField ilim || argAdjusted vfloorField vfloor then .clamped else .ok, t.inputBody⟩

/-- INPUT_LIMIT (R140). -/
def execInputLimit (tag : Byte) (ilim vfloor : Word) (s : State) : Result :=
  s.request .inputLimit tag (State.inputLimit ilim vfloor)

/-- INPUT-SUSPEND READ carried out; any other function value without a row of its own is refused (R142,
log 20). -/
def State.readSuspend (func : Byte) (s : State) : Answer :=
  if func = 0 then s.shows s.inputBody else s.badArg s.inputBody

/-- INPUT_SUSPEND_READ (R142). -/
def execInputSuspendRead (tag func : Byte) (s : State) : Result :=
  s.request .inputSuspend tag (State.readSuspend func)

/-- The HOST suspend reason is added or removed, and the state follows (R136, R142). -/
def State.hostSuspend (present : Bool) (s : State) : Answer :=
  let t := s.setReasons { s.input.reasons with host := present }
  t.shows t.inputBody

/-- INPUT_SUSPEND_SUSPEND (R142). -/
def execInputSuspendSuspend (tag : Byte) (s : State) : Result :=
  s.request .inputSuspend tag (State.hostSuspend true)

/-- INPUT_SUSPEND_RESUME (R142). -/
def execInputSuspendResume (tag : Byte) (s : State) : Result :=
  s.request .inputSuspend tag (State.hostSuspend false)

/-! ### Sequencers and counters -/

/-- The ceiling that a value gives: clamped to 500..1000 (R78). -/
def ceilingOf (value : Word) : Int := clamp 500 1000 value.toNat

/-- The state after something is done to each cell of a target: the near one first, which shows in the order
of the CHARGE-N and CHARGE-F entries that a request to BOTH queues (R79, log 46). -/
def State.forEach (s : State) (cells : List Cell) (f : Cell → State → State) : State :=
  cells.foldl (fun t c => f c t) s

/-- CEILING carried out (R78). -/
def State.ceiling (target : Byte) (value : Word) (s : State) : Answer :=
  match targetOf target with
  | some cells =>
    let t := s.forEach cells fun c u => u.setCeiling (ceilingOf value) c
    ⟨t, if ceilingOf value = value.toNat then .ok else .clamped, t.ceilingBody⟩
  | none => s.badArg s.ceilingBody

/-- CEILING (R78). -/
def execCeiling (tag target : Byte) (value : Word) (s : State) : Result :=
  s.request .ceiling tag (State.ceiling target value)

/-- Both timers to 0 and an entry evaluation (R66, R77). -/
def State.restartCell (c : Cell) (s : State) : State :=
  s.takeEventSeq c (Seq.entryReset (s.seqEnv c) (s.seq.get c))

/-- A cell for which CHARGE-RESTART is refused (R77). -/
def State.restartBarred (s : State) (c : Cell) : Bool :=
  (s.seq.get c).state == .idle || (s.seq.get c).state == .absent

/-- CHARGE-RESTART carried out (R77). -/
def State.chargeRestart (target : Byte) (s : State) : Answer :=
  match targetOf target with
  | some cells =>
    if cells.any s.restartBarred then ⟨s, .refused, s.restartBody⟩
    else
      let t := s.forEach cells State.restartCell
      t.shows t.restartBody
  | none => s.badArg s.restartBody

/-- CHARGE_RESTART (R77). -/
def execChargeRestart (tag target : Byte) (s : State) : Result :=
  s.request .chargeRestart tag (State.chargeRestart target)

/-- Seed pending after a GAUGE-SEED (R31). -/
def SeedPending.request : SeedPending → SeedPending
  | .none => .requested
  | .powerOn => .powerOn
  | .requested => .requested

/-- A seed is requested for a cell (R31). -/
def State.requestSeed (c : Cell) (s : State) : State :=
  let r := s.counter.get c
  s.setCounter c { r with seed := r.seed.request }

/-- GAUGE-SEED carried out (R31). -/
def State.gaugeSeed (target : Byte) (s : State) : Answer :=
  match targetOf target with
  | some cells =>
    let t := s.forEach cells State.requestSeed
    t.shows t.seedBody
  | none => s.badArg s.seedBody

/-- GAUGE_SEED (R31). -/
def execGaugeSeed (tag target : Byte) (s : State) : Result :=
  s.request .gaugeSeed tag (State.gaugeSeed target)

/-! ### Inhibit sets (R180 to R184) -/

/-- The reasons of a mask that are present in a set of the target. -/
def State.present (s : State) (cells : List Cell) (mask : Byte) : Byte :=
  cells.foldl (fun acc c => acc ||| (s.inhibit.get c &&& mask)) 0

/-- Every set of the target is changed alike. -/
def State.changeSets (s : State) (cells : List Cell) (f : Byte → Byte) : State :=
  s.forEach cells fun c t => t.setInhibitSet c (f (t.inhibit.get c))

/-- The change is made, with ACCEPT and an empty blocking set. -/
def State.acceptInhibit (s : State) (cells : List Cell) (f : Byte → Byte) : Answer :=
  let t := s.changeSets cells f
  ⟨t, .accept, t.inhibitBody 0⟩

/-- The change is made when nothing blocks, and neither set changes otherwise (R181, R184). -/
def State.claim (s : State) (cells : List Cell) (mask blocking : Byte) : Answer :=
  if blocking = 0 then s.acceptInhibit cells (· ||| mask) else ⟨s, .abort, s.inhibitBody blocking⟩

/-- A mask that names BOOT (R178, R180). -/
def namesBoot (mask : Byte) : Bool := mask.getLsbD 0

/-- A function that places reasons, carried out: a target without a code and a mask that names BOOT are
refused (R180). -/
def State.placing (target mask : Byte) (act : List Cell → Answer) (s : State) : Answer :=
  match targetOf target with
  | some cells => if namesBoot mask then s.badArg (s.inhibitBody 0) else act cells
  | none => s.badArg (s.inhibitBody 0)

/-- SELECT carried out (R181). -/
def State.inhibitSelect (target mask : Byte) (s : State) : Answer :=
  s.placing target mask fun cells => s.claim cells mask (s.present cells mask)

/-- INHIBIT_SELECT (R181). -/
def execInhibitSelect (tag target mask : Byte) (s : State) : Result :=
  s.request .inhibit tag (State.inhibitSelect target mask)

/-- SET carried out (R182). -/
def State.inhibitSet (target mask : Byte) (s : State) : Answer :=
  s.placing target mask fun cells => s.acceptInhibit cells (· ||| mask)

/-- INHIBIT_SET (R182). -/
def execInhibitSet (tag target mask : Byte) (s : State) : Result :=
  s.request .inhibit tag (State.inhibitSet target mask)

/-- CLEAR carried out; it may name BOOT (R182). -/
def State.inhibitClear (target mask : Byte) (s : State) : Answer :=
  match targetOf target with
  | some cells => s.acceptInhibit cells (· &&& ~~~mask)
  | none => s.badArg (s.inhibitBody 0)

/-- INHIBIT_CLEAR (R182). -/
def execInhibitClear (tag target mask : Byte) (s : State) : Result :=
  s.request .inhibit tag (State.inhibitClear target mask)

/-- TEST carried out; any other function value without a row of its own is refused (R180, R183, log 20). -/
def State.inhibitTest (func target mask : Byte) (s : State) : Answer :=
  match targetOf target with
  | some cells =>
    if func != 3 then s.badArg (s.inhibitBody 0)
    else
      let blocking := s.present cells mask
      ⟨s, if blocking = 0 then .accept else .abort, s.inhibitBody blocking⟩
  | none => s.badArg (s.inhibitBody 0)

/-- INHIBIT_TEST (R183). -/
def execInhibitTest (tag func target mask : Byte) (s : State) : Result :=
  s.request .inhibit tag (State.inhibitTest func target mask)

/-- EMPTY-SELECT carried out (R184). -/
def State.inhibitEmptySelect (target mask : Byte) (s : State) : Answer :=
  s.placing target mask fun cells => s.claim cells mask (s.present cells 0xFF)

/-- INHIBIT_EMPTY_SELECT (R184). -/
def execInhibitEmptySelect (tag target mask : Byte) (s : State) : Result :=
  s.request .inhibit tag (State.inhibitEmptySelect target mask)

/-! ### Faults and the transfer -/

/-- FAULT-CLEAR carried out (R172). -/
def State.faultClear (mask : Word) (s : State) : Answer :=
  if maskWithin 0 12 mask then
    let unchanged := unchangedSet s.prot.record mask
    let t := s.setFaults (recordsAfterClear s.prot.record s.tables.protect mask)
    ⟨t, if unchanged = 0 then .ok else .part, t.faultClearBody unchanged⟩
  else s.badArg (s.faultClearBody 0)

/-- FAULT_CLEAR (R172). -/
def execFaultClear (tag : Byte) (mask : Word) (s : State) : Result :=
  s.request .faultClear tag (State.faultClear mask)

/-- BALANCE READ carried out; any other function value without a row of its own is refused (R100,
log 20). -/
def State.readBalance (func : Byte) (s : State) : Answer :=
  if func = 0 then s.shows s.balanceBody else s.badArg s.balanceBody

/-- BALANCE_READ (R100). -/
def execBalanceRead (tag func : Byte) (s : State) : Result :=
  s.request .balance tag (State.readBalance func)

/-- The host transfer enable becomes the one given (R100). -/
def State.setEnable (s : State) (v : Bool) : State := s.setAlloc { s.alloc with enable := v }

/-- ENABLE carried out (R100). -/
def State.enableTransfer (s : State) : Answer :=
  let t := s.setEnable true
  t.shows t.balanceBody

/-- BALANCE_ENABLE (R100). -/
def execBalanceEnable (tag : Byte) (s : State) : Result := s.request .balance tag State.enableTransfer

/-- DISABLE carried out: a transfer in progress ends with cause HOST (R100, R105). -/
def State.disableTransfer (s : State) : Answer :=
  let t := (s.setEnable false).endTransferOnEvent .host
  t.shows t.balanceBody

/-- BALANCE_DISABLE (R100). -/
def execBalanceDisable (tag : Byte) (s : State) : Result := s.request .balance tag State.disableTransfer

/-- CANCEL carried out: ABORT when no transfer was in progress (R100, R105). -/
def State.cancelTransfer (s : State) : Answer :=
  let t := s.endTransferOnEvent .host
  ⟨t, if s.alloc.transfer.active then .ok else .abort, t.balanceBody⟩

/-- BALANCE_CANCEL (R100). -/
def execBalanceCancel (tag : Byte) (s : State) : Result := s.request .balance tag State.cancelTransfer

end Sys2Proof.Machine
end

