-- ==== Sys2Proof/Machine/TableRequests.lean ====
section
/-! DEFINITION. Machine/TableRequests.lean: the requests on the tables and the store: TABLE-READ, TABLE-WRITE, STORE, LOAD and STORE-CANCEL (R46, R47, R53, R191, R193, R195, R210, R211). -/

namespace Sys2Proof.Machine

/-! ### TABLE-READ (R210) -/

/-- The words of a read: 0 at and beyond the table's length. -/
def readWords (w : Words) (offset count : Nat) : List Byte :=
  ((List.range count).map fun i => w16 (w.at (offset + i))).flatten

/-- TABLE-READ carried out. A read refused on its id carries a count of 0 (R199); the count byte of one
refused for its count is free (log 7). -/
def State.tableRead (id offset count : Byte) (s : State) : Answer :=
  match tableOf id with
  | none => s.badArg [id, offset, 0, 0]
  | some t =>
    if 28 < count.toNat then s.badArg [id, offset, Config.refusedReadCount s.fresh, s.editCode t]
    else
      ⟨s, if 0 < count.toNat ∧ t.length < offset.toNat + count.toNat then .part else .ok,
        [id, offset, count, s.editCode t] ++ readWords (s.tableWords t) offset.toNat count.toNat⟩

/-- TABLE_READ (R210). -/
def execTableRead (tag id offset count : Byte) (s : State) : Result :=
  s.request .tableRead tag (State.tableRead id offset count)

/-! ### TABLE-WRITE (R211) -/

/-- The body of a TABLE-WRITE reply, as the state after the request stands. -/
def State.writeBody (s : State) (id offset count : Byte) (t : TableId) (check : Nat) (clamped : Bool) :
    List Byte :=
  [id, offset, count, s.editCode t, w8 check, flagCode clamped]

/-- The status of a write that is taken. -/
def writeStatus (clamped : Bool) : Status := if clamped then .clamped else .ok

/-- A final write to a pending copy: the words are stored, and the copy is promoted or rejected (R47). -/
def State.writeAndPromote (s : State) (id offset : Byte) (r : RecordId) (k : Copies) (words : List Word) :
    Answer :=
  let k' := k.write (s.fieldsOf r) offset.toNat words
  let check := checkOf s.factory r k'.pending
  let clamped := anyAdjusted (s.fieldsOf r) offset.toNat words
  let t := s.promote r k' .write
  ⟨t, if check = 0 then writeStatus clamped else .refused,
    t.writeBody id offset (w8 words.length) (.record r) check clamped⟩

/-- A write to a pending copy without the final flag (R46). -/
def State.writePending (s : State) (id offset : Byte) (r : RecordId) (k : Copies) (words : List Word) :
    Answer :=
  let clamped := anyAdjusted (s.fieldsOf r) offset.toNat words
  let t := s.setCopies r (k.write (s.fieldsOf r) offset.toNat words)
  ⟨t, writeStatus clamped, t.writeBody id offset (w8 words.length) (.record r) 0 clamped⟩

/-- A write to a table 4..8 (R190). -/
def State.writeInForce (s : State) (id offset : Byte) (r : RecordId) (words : List Word) : Answer :=
  let clamped := (s.broughtIn r offset.toNat words).2
  let t := s.bring r offset.toNat words
  ⟨t, writeStatus clamped, t.writeBody id offset (w8 words.length) (.record r) 0 clamped⟩

/-- Outcomes 3 to 5 of R211. -/
def State.writeRecord (s : State) (final : Bool) (id offset : Byte) (r : RecordId) (words : List Word) :
    Answer :=
  if r.length < offset.toNat + words.length then
    ⟨s, .range, s.writeBody id offset (w8 words.length) (.record r) 0 false⟩
  else
    match s.copiesOf r with
    | some k =>
      if final then s.writeAndPromote id offset r k words else s.writePending id offset r k words
    | none => s.writeInForce id offset r words

/-- A flags byte with a bit other than the final flag (R211). -/
def strayFlags (flags : Byte) : Bool := flags &&& 0xFE != 0

/-- TABLE-WRITE carried out, in the order of R211. -/
def State.tableWrite (final : Bool) (id offset flags : Byte) (words : List Word) (s : State) : Answer :=
  match tableOf id with
  | none => s.badArg [id, offset, 0, 0, 0, 0]
  | some t =>
    if strayFlags flags then s.badArg (s.writeBody id offset (w8 words.length) t 0 false)
    else
      match t with
      | .record r => s.writeRecord final id offset r words
      | .factory => ⟨s, .readOnly, s.writeBody id offset 0 t 0 false⟩
      | .activeProfile _ => ⟨s, .readOnly, s.writeBody id offset 0 t 0 false⟩
      | .activeBands => ⟨s, .readOnly, s.writeBody id offset 0 t 0 false⟩

/-- TABLE_WRITE (R211). -/
def execTableWrite (tag id offset flags : Byte) (words : List Word) (s : State) : Result :=
  s.request .tableWrite tag (State.tableWrite false id offset flags words)

/-- TABLE_WRITE_FINAL (R47, R211). -/
def execTableWriteFinal (tag id offset flags : Byte) (words : List Word) (s : State) : Result :=
  s.request .tableWrite tag (State.tableWrite true id offset flags words)

/-! ### STORE, LOAD and STORE-CANCEL -/

/-- A store operation runs (R191). -/
def State.writing (s : State) : Bool :=
  match s.store.state with
  | .idle => false
  | .writing _ => true

/-- Why a STORE or LOAD of a mask is refused, if it is; which refusal comes first where both apply is free
(R191, R195, log 6). -/
def State.storeRefusal (s : State) (mask : Word) : Option Status :=
  if maskWithin 1 8 mask then if s.writing then some .busy else none
  else if s.writing && Config.busyBeforeBadArg s.fresh then some .busy
  else some .badArg

/-- STORE carried out (R191). -/
def State.storeRequest (mask : Word) (s : State) : Answer :=
  match s.storeRefusal mask with
  | some why => ⟨s, why, s.storeBody⟩
  | none =>
    let t := s.startStore (recordsIn mask)
    t.shows t.storeBody

/-- STORE (R191). -/
def execStore (tag : Byte) (mask : Word) (s : State) : Result :=
  s.request .store tag (State.storeRequest mask)

/-- The reply body of LOAD (R195). -/
def loadBody (loaded bad : List RecordId) (check : RecordId → Nat) : List Byte :=
  le16 (recordSet loaded) ++ le16 (recordSet bad)
    ++ [w8 (check .profileN), w8 (check .profileF), w8 (check .bands)]

/-- LOAD carried out (R195). A refused one gives empty sets and no check number (log 8). -/
def State.loadRequest (mask : Word) (s : State) : Answer :=
  match s.storeRefusal mask with
  | some why => ⟨s, why, loadBody [] [] fun _ => 0⟩
  | none =>
    let o := s.loadRecords (recordsIn mask)
    ⟨o.state, if o.bad.isEmpty then .ok else .part, loadBody o.loaded o.bad o.checkOf⟩

/-- LOAD (R195). -/
def execLoad (tag : Byte) (mask : Word) (s : State) : Result :=
  s.request .load tag (State.loadRequest mask)

/-- A cancel of a store operation that runs; a second one changes nothing (R193). -/
def Writing.cancelled (w : Writing) : Writing :=
  if w.cancel then w else { w with cancel := true, todo := [] }

/-- STORE-CANCEL carried out (R193). -/
def State.cancelStore (s : State) : Answer :=
  match s.store.state with
  | .writing w =>
    let t := s.setStore { s.store with state := .writing w.cancelled }
    t.shows t.storeBody
  | .idle => ⟨s, .abort, s.storeBody⟩

/-- STORE_CANCEL (R193). -/
def execStoreCancel (tag : Byte) (s : State) : Result := s.request .storeCancel tag State.cancelStore

end Sys2Proof.Machine
end

