-- ==== Sys2Proof/Machine/Dispatch.lean ====
section
/-! DEFINITION. Machine/Dispatch.lean: what each command does: one arm for each constructor of Instr, one call of its meaning. -/

namespace Sys2Proof.Machine

def exec (i : Instr) (s : State) : Host.Outcome State Fault Refusal :=
    match i with
    | .powerOnReset => Sys2Proof.Machine.execPowerOnReset s
    | .powerOnLoad => Sys2Proof.Machine.execPowerOnLoad s
    | .powerOnLoadCompletion => Sys2Proof.Machine.execPowerOnLoadCompletion s
    | .roundTimerExpiry => Sys2Proof.Machine.execRoundTimerExpiry s
    | .roundCompletion conv => Sys2Proof.Machine.execRoundCompletion conv s
    | .counterSetSteps c => Sys2Proof.Machine.execCounterSetSteps c s
    | .fullMark c => Sys2Proof.Machine.execFullMark c s
    | .sequencerSetHandling c => Sys2Proof.Machine.execSequencerSetHandling c s
    | .safetyTimerExpiry c => Sys2Proof.Machine.execSafetyTimerExpiry c s
    | .seqInputGranted c => Sys2Proof.Machine.execSeqInputGranted c s
    | .seqInputWithdrawn c => Sys2Proof.Machine.execSeqInputWithdrawn c s
    | .seqInhibitEvent c => Sys2Proof.Machine.execSeqInhibitEvent c s
    | .seqFaultReasonUpdate c => Sys2Proof.Machine.execSeqFaultReasonUpdate c s
    | .seqPromotion c => Sys2Proof.Machine.execSeqPromotion c s
    | .protectionSetReaction => Sys2Proof.Machine.execProtectionSetReaction s
    | .inputSagDerateStep => Sys2Proof.Machine.execInputSagDerateStep s
    | .allocationFrame => Sys2Proof.Machine.execAllocationFrame s
    | .transferEventEnd e => Sys2Proof.Machine.execTransferEventEnd e s
    | .pathOrderDelivery c => Sys2Proof.Machine.execPathOrderDelivery c s
    | .pathRestrictionChange c => Sys2Proof.Machine.execPathRestrictionChange c s
    | .rampTimerExpiry c => Sys2Proof.Machine.execRampTimerExpiry c s
    | .pathInputGranted c => Sys2Proof.Machine.execPathInputGranted c s
    | .pathInputWithdrawn c => Sys2Proof.Machine.execPathInputWithdrawn c s
    | .pathHingeUnsettled => Sys2Proof.Machine.execPathHingeUnsettled s
    | .grantsClearedOnWithdrawal => Sys2Proof.Machine.execGrantsClearedOnWithdrawal s
    | .farGrantHingeCap => Sys2Proof.Machine.execFarGrantHingeCap s
    | .overcurrentTrip c current => Sys2Proof.Machine.execOvercurrentTrip c current s
    | .tripRearm c current => Sys2Proof.Machine.execTripRearm c current s
    | .retryTimerExpiry c => Sys2Proof.Machine.execRetryTimerExpiry c s
    | .dieSuspendReasonChange => Sys2Proof.Machine.execDieSuspendReasonChange s
    | .comparatorRawChange vbus => Sys2Proof.Machine.execComparatorRawChange vbus s
    | .attachFilterExpiry k => Sys2Proof.Machine.execAttachFilterExpiry k s
    | .qualificationExpiry => Sys2Proof.Machine.execQualificationExpiry s
    | .foldRawChange f active => Sys2Proof.Machine.execFoldRawChange f active s
    | .hingeFilterExpiry f => Sys2Proof.Machine.execHingeFilterExpiry f s
    | .settleTimerExpiry => Sys2Proof.Machine.execSettleTimerExpiry s
    | .startupSampleExpiry => Sys2Proof.Machine.execStartupSampleExpiry s
    | .recordCompletion => Sys2Proof.Machine.execRecordCompletion s
    | .supervisorExpiry => Sys2Proof.Machine.execSupervisorExpiry s
    | .emptyWrite => Sys2Proof.Machine.execEmptyWrite s
    | .badRequestFrame bytes => Sys2Proof.Machine.execBadRequestFrame bytes s
    | .unknownRequest kind tag body => Sys2Proof.Machine.execUnknownRequest kind tag body s
    | .lengthError kind tag body => Sys2Proof.Machine.execLengthError kind tag body s
    | .readReply count => Sys2Proof.Machine.execReadReply count s
    | .identify tag => Sys2Proof.Machine.execIdentify tag s
    | .status tag => Sys2Proof.Machine.execStatus tag s
    | .measure tag sect => Sys2Proof.Machine.execMeasure tag sect s
    | .cell tag cell sect => Sys2Proof.Machine.execCell tag cell sect s
    | .allocation tag => Sys2Proof.Machine.execAllocation tag s
    | .faults tag sect => Sys2Proof.Machine.execFaults tag sect s
    | .inputLimit tag ilim vfloor => Sys2Proof.Machine.execInputLimit tag ilim vfloor s
    | .inputSuspendRead tag func => Sys2Proof.Machine.execInputSuspendRead tag func s
    | .inputSuspendSuspend tag => Sys2Proof.Machine.execInputSuspendSuspend tag s
    | .inputSuspendResume tag => Sys2Proof.Machine.execInputSuspendResume tag s
    | .ceiling tag target value => Sys2Proof.Machine.execCeiling tag target value s
    | .inhibitSelect tag target mask => Sys2Proof.Machine.execInhibitSelect tag target mask s
    | .inhibitSet tag target mask => Sys2Proof.Machine.execInhibitSet tag target mask s
    | .inhibitClear tag target mask => Sys2Proof.Machine.execInhibitClear tag target mask s
    | .inhibitTest tag func target mask => Sys2Proof.Machine.execInhibitTest tag func target mask s
    | .inhibitEmptySelect tag target mask => Sys2Proof.Machine.execInhibitEmptySelect tag target mask s
    | .faultClear tag mask => Sys2Proof.Machine.execFaultClear tag mask s
    | .chargeRestart tag target => Sys2Proof.Machine.execChargeRestart tag target s
    | .gaugeSeed tag target => Sys2Proof.Machine.execGaugeSeed tag target s
    | .balanceRead tag func => Sys2Proof.Machine.execBalanceRead tag func s
    | .balanceEnable tag => Sys2Proof.Machine.execBalanceEnable tag s
    | .balanceDisable tag => Sys2Proof.Machine.execBalanceDisable tag s
    | .balanceCancel tag => Sys2Proof.Machine.execBalanceCancel tag s
    | .tableRead tag id offset count => Sys2Proof.Machine.execTableRead tag id offset count s
    | .tableWrite tag id offset flags words => Sys2Proof.Machine.execTableWrite tag id offset flags words s
    | .tableWriteFinal tag id offset flags words => Sys2Proof.Machine.execTableWriteFinal tag id offset flags words s
    | .store tag mask => Sys2Proof.Machine.execStore tag mask s
    | .load tag mask => Sys2Proof.Machine.execLoad tag mask s
    | .storeCancel tag => Sys2Proof.Machine.execStoreCancel tag s
    | .noticeFetch tag => Sys2Proof.Machine.execNoticeFetch tag s
    | .noticeMaskRead tag func enabled => Sys2Proof.Machine.execNoticeMaskRead tag func enabled s
    | .noticeMaskWrite tag enabled => Sys2Proof.Machine.execNoticeMaskWrite tag enabled s
    | .softReset tag => Sys2Proof.Machine.execSoftReset tag s

end Sys2Proof.Machine
end

