-- ==== Sys2Proof/Machine/Step.lean ====
section
/-! DEFINITION. Machine/Step.lean: one step of the part: the command at the front of the queue, or a tenth of a millisecond of time on an empty queue. -/

namespace Sys2Proof.Machine

/-- A running timer counts down and stops at 0; a stopped one stays stopped. -/
def countDown (t : Option Nat) : Option Nat := t.map (· - 1)

/-- The filter timer counts down. -/
def Filtered.tick (f : Filtered) : Filtered := { f with timer := countDown f.timer }

/-- A tenth of a millisecond passes: every running timer counts down, and nothing else changes (log 3). -/
def State.tick (s : State) : State :=
  { s with
    meas := { s.meas with roundTimer := countDown s.meas.roundTimer }
    path := s.path.map fun p => { p with ramp := countDown p.ramp }
    input :=
      { s.input with
        present := s.input.present.tick
        ov := s.input.ov.tick
        qual := countDown s.input.qual }
    hinge :=
      { s.hinge with
        foldA := s.hinge.foldA.tick
        foldB := s.hinge.foldB.tick
        settle := countDown s.hinge.settle
        startup := countDown s.hinge.startup }
    prot := { s.prot with retry := s.prot.retry.map countDown }
    link := { s.link with supervisor := countDown s.link.supervisor } }

/-- One step: the command at the front of the queue runs on the state with the rest of the queue. On an
empty queue no command runs and time passes (log 1, log 3). -/
def step (s : State) : Host.Outcome State Fault Refusal :=
  match s.pending with
  | c :: rest => exec c { s with pending := rest }
  | [] => .next s.tick

/-- The state with the command that a table word spells at the front of its queue. No row of the table
gives bits, so no word spells one, and the state is unchanged. -/
def State.withFetchWord (s : State) (nbits w : Nat) : State :=
  match decodeTableWord nbits w with
  | some c => { s with pending := c :: s.pending }
  | none => s

end Sys2Proof.Machine
end

