-- ==== Sys2Proof/Safety.lean ====
section
/-! DEFINITION. Safety.lean: what the manual says always holds of the part, one predicate for each block or each link between blocks. None of them mentions a command. -/

namespace Sys2Proof.Machine

/-- A property of both cells' items. -/
abbrev Both {α : Type} (p : PerCell α) (P : α → Prop) : Prop := P p.near ∧ P p.far

/-! ### The factory block and the tables -/

/-- The factory block lies in its permitted ranges (R188). -/
abbrev FactoryOk (f : Factory) : Prop :=
  (1000 ≤ f.dcapN ∧ f.dcapN ≤ 6000) ∧ (1000 ≤ f.dcapF ∧ f.dcapF ≤ 6000)
    ∧ (4200 ≤ f.vmax ∧ f.vmax ≤ 4500)
    ∧ (500 ≤ f.imaxN ∧ f.imaxN ≤ 5000) ∧ (500 ≤ f.imaxF ∧ f.imaxF ≤ 5000)
    ∧ (1000 ≤ f.itripN ∧ f.itripN ≤ 8000) ∧ (1000 ≤ f.itripF ∧ f.itripF ≤ 8000)
    ∧ (1000 ≤ f.idisMax ∧ f.idisMax ≤ 8000)

/-- Every word lies in its field's range, and no word is missing. -/
abbrev InFields (fields : List Field) (w : Words) : Prop :=
  w.length = fields.length ∧ ∀ p ∈ fields.zip w, p.1.lo ≤ p.2 ∧ p.2 ≤ p.1.hi

/-- Both copies of a table in range, and the active one validated (R44, R47 to R49). -/
abbrev CopiesOk (f : Factory) (r : RecordId) (fields : List Field) (k : Copies) : Prop :=
  InFields fields k.active ∧ InFields fields k.pending ∧ checkOf f r k.active = 0

/-- Every table in force in range, and every active profile and band table validated. -/
abbrev TablesOk (f : Factory) (t : Tables) : Prop :=
  CopiesOk f .profileN profileFields t.profile.near ∧ CopiesOk f .profileF profileFields t.profile.far
    ∧ CopiesOk f .bands bandFields t.bands ∧ InFields limitsFields t.limits
    ∧ InFields (balanceFields (Balance.xferStart t.balance)) t.balance
    ∧ InFields (protectFields f.vmax) t.protect ∧ InFields calFields t.cal
    ∧ InFields (List.replicate 11 ⟨1, 2500, 4500⟩) t.ocv

/-! ### Charge counters -/

/-- The bounds of a counter record (R21, R22). -/
abbrev CounterOk (design : Int) (r : CounterRecord) : Prop :=
  (capLo design ≤ r.cap ∧ r.cap ≤ capHi design) ∧ (0 ≤ r.q ∧ r.q ≤ r.cap * 1000)
    ∧ (-3599 ≤ r.residue ∧ r.residue ≤ 3599) ∧ (0 ≤ r.a ∧ r.a ≤ 2 * design * 1000)

/-- Both counters within their bounds. -/
abbrev CountersOk (s : State) : Prop :=
  CounterOk s.factory.dcapN s.counter.near ∧ CounterOk s.factory.dcapF s.counter.far

/-! ### Sequencers -/

/-- A sequencer's fields agree with its state (R57, R64, R73, R74). -/
abbrev SeqOk (r : SeqRecord) : Prop :=
  (r.state.charging → r.reasons.any = false) ∧ (r.k ≠ 0 → r.state = .fast)
    ∧ (r.full ≠ .none ↔ r.state = .full) ∧ (r.state.charging = false → r.demand = 0)
    ∧ r.demand % 25 = 0 ∧ r.band ≤ 6 ∧ (r.adv ≠ 0 → r.state = .fast) ∧ (r.term ≠ 0 → r.state = .taper)
    ∧ r.adv ≤ 2 ∧ r.term ≤ 3
    ∧ (r.state = .idle ∨ r.state = .absent ∨ r.state = .full → r.pre = 0 ∧ r.fast = 0)

/-- The last signal that waits agrees with whether the input is ACTIVE (R137). -/
abbrev LastSignal (active : Bool) (l : List InputSignal) : Prop :=
  ∀ x ∈ l.getLast?, x = if active then .granted else .withdrawn

/-- A cell holds a charge only while the input is ACTIVE, or a withdrawal waits for its sequencer
(R57, R75). -/
abbrev ChargesUnderInput (active : Bool) (r : SeqRecord) (l : List InputSignal) : Prop :=
  LastSignal active l ∧ (r.state = .idle ∨ r.state = .absent ∨ active ∨ .withdrawn ∈ l)

/-- The pause reasons that other blocks bring agree with those blocks, or with the latest change that
waits (R62, R124, R179). -/
abbrev ReasonsFollow (r : SeqRecord) (inhibit : Byte) (restriction : Restriction) (inhibits : List Bool)
    (faults : List Restriction) : Prop :=
  inhibits.getLast?.getD r.reasons.inhibit = (inhibit != 0)
    ∧ (faults.getLast?.map Restriction.blocksCharge).getD r.reasons.fault = restriction.blocksCharge

/-- The words of a promotion of a profile. -/
def Promoted.profileWords : Promoted → Option Words
  | .profile w => some w
  | .bands _ => none

/-- The words of a promotion of BANDS. -/
def Promoted.bandWords : Promoted → Option Words
  | .profile _ => none
  | .bands w => some w

/-- What a sequencer holds is what stands in the active tables and in the record of VC, but for the
promotions and the sets that wait for it (R8, R51, R58, R75). -/
abbrev SeenFollows (s : State) (c : Cell) : Prop :=
  let waiting := s.handed.seqPromotion.get c
  let vc := (s.handed.seqSet.get c).getLast?.map fun m => (m.vc c, m.vcAge c)
  (waiting.filterMap Promoted.profileWords).getLast?.getD (s.seen.get c).prof
      = (s.tables.profile.get c).active
    ∧ (waiting.filterMap Promoted.bandWords).getLast?.getD (s.seen.get c).bands
      = s.tables.bands.active
    ∧ vc.getD ((s.seen.get c).vc, (s.seen.get c).age) = ((s.vc c).value, (s.vc c).age)

/-- Both sequencers follow the tables and VC, and no promotion waits before the part is open (R55). -/
abbrev SeenOk (s : State) : Prop :=
  (s.phase ≠ .running → s.handed.seqPromotion = ⟨[], []⟩) ∧ SeenFollows s .near ∧ SeenFollows s .far

/-! ### Cell paths -/

/-- The effective state conducts in no direction that the restriction blocks, the ramp timer runs in RAMP
alone, and an OPEN path is armed (R112, R116, R117, R126). -/
abbrev PathOk (p : PathRecord) : Prop :=
  (p.restriction = .blockAll → p.eff.discharge = .blocked ∧ p.eff.charge = .blocked)
    ∧ (p.restriction = .blockDischarge → p.eff.discharge = .blocked)
    ∧ (p.restriction = .blockCharge → p.eff.charge = .blocked)
    ∧ (p.ramp.isSome ↔ p.eff = .ramp) ∧ (p.eff = .openPath → p.armed)

/-- A path that joins its cell to the rail both ways. -/
abbrev Joined (p : PathRecord) : Prop := p.eff = .closed ∨ p.eff = .ramp

/-- No path is in CLOSED or RAMP while the input is ACTIVE, but for a grant that waits for it (R115,
R120). -/
abbrev OpenUnderInput (active : Bool) (p : PathRecord) (l : List InputSignal) : Prop :=
  active → Joined p → .granted ∈ l

/-- While the hinge is not settled the far path is held to HINGE_CAP, but for a hinge event that waits
for it (R115, R122). -/
abbrev FarHeld (s : State) : Prop :=
  s.hinge.settled = false → s.handed.pathHinge = 0 →
    ¬ Joined s.path.far ∧ s.path.far.eff.target ≤ Limits.hingeCap s.tables.limits

/-! ### Input stage and hinge monitor -/

/-- The state agrees with the filtered levels, the qualification timer and the settings' ranges (R129,
R133, R139, R141). -/
abbrev InputOk (r : InputStage) : Prop :=
  (r.state = .qualifying ∨ r.state = .active ∨ r.state = .suspended →
      r.present.level = true ∧ r.ov.level = false)
    ∧ (r.state = .blocked → r.ov.level = true)
    ∧ (r.state = .detached → ¬ (r.present.level = true ∧ r.ov.level = false))
    ∧ (r.qual.isSome ↔ r.state = .qualifying)
    ∧ (r.state = .active → r.reasons.any = false) ∧ (r.state = .suspended → r.reasons.any = true)
    ∧ (100 ≤ r.ilim ∧ r.ilim ≤ 3000 ∧ r.ilim % 25 = 0)
    ∧ (4200 ≤ r.vfloor ∧ r.vfloor ≤ 12000 ∧ r.vfloor % 50 = 0) ∧ (100 ≤ r.sd ∧ r.sd ≤ 1000)

/-- The position is one of the two stops. -/
abbrev AtStop (h : Hinge) : Prop := h.position = .opened ∨ h.position = .closed

/-- Settled, the settle timer and the filters agree with the position and with the part's phase (R146,
R149, R155). -/
abbrev HingeOk (running : Bool) (h : Hinge) : Prop :=
  (h.settled = true → AtStop h) ∧ (h.settle.isSome → AtStop h ∧ h.settled = false)
    ∧ h.conflicts ≤ 255
    ∧ (h.startup.isSome → h.settled = false ∧ h.settle = none)
    ∧ (running = false ∨ h.startup.isSome → h.foldA.timer = none ∧ h.foldB.timer = none)
    ∧ (running = true → h.startup = none →
        (h.foldA.timer.isSome ↔ h.foldA.raw ≠ h.foldA.level)
          ∧ (h.foldB.timer.isSome ↔ h.foldB.raw ≠ h.foldB.level))
    ∧ (running = false → h.settled = false ∧ h.settle = none ∧ h.startup = none)

/-- The filter timer of a comparator runs exactly while its raw output differs from its filtered level,
once the power-on load is complete (R129, R144). -/
abbrev AttachOk (running : Bool) (f : Filtered) : Prop :=
  if running then f.timer.isSome ↔ f.raw ≠ f.level else f.timer = none

/-! ### Protection -/

/-- The fields of a fault record are tied together (R158, R163). -/
abbrev FaultOk (w : Words) (k : FaultKind) (r : FaultRecord) : Prop :=
  (r.active = true → r.latched = true)
    ∧ r.inForce = judge (Protect.classOf w k.num) r.active r.latched ∧ r.count ≤ 255

/-- Every fault record is tied together. -/
abbrev FaultsOk (s : State) : Prop :=
  ∀ k ∈ FaultKind.all, FaultOk s.tables.protect k (s.prot.record.get k)

/-- The blocks in force stand at the path, or wait for it (R114, R169). -/
abbrev BlocksReach (faults : PerFault FaultRecord) (c : Cell) (p : PathRecord) (l : List Blocks) : Prop :=
  (l.getLast?.map Blocks.restriction).getD p.restriction = (blocksOn faults c).restriction

/-- Protection's actions stand at their receivers, or wait for them (R169, R170). -/
abbrev ActionsReach (s : State) : Prop :=
  BlocksReach s.prot.record .near s.path.near s.handed.pathBlocks.near
    ∧ BlocksReach s.prot.record .far s.path.far s.handed.pathBlocks.far
    ∧ s.handed.die.getLast?.getD s.input.reasons.die = s.prot.record.dieOt.inForce

/-! ### The transfer -/

/-- A transfer is in progress only while the input is not ACTIVE, the hinge is settled and neither path
carries a restriction, but for an event that waits to end it (R99, R105). -/
abbrev TransferOk (s : State) : Prop :=
  s.alloc.transfer.active = true →
    (s.inputActive = true → .granted ∈ s.handed.allocSignal)
      ∧ (s.hinge.settled = false → .hingeUnsettled ∈ s.handed.transfer)
      ∧ (s.path.near.restriction ≠ .none → .restriction .near ∈ s.handed.transfer)
      ∧ (s.path.far.restriction ≠ .none → .restriction .far ∈ s.handed.transfer)

/-- A transfer in progress names its two cells (R99). -/
abbrev TransferNamed (t : TransferRecord) : Prop :=
  t.active = true → ∃ c, t.receiver = some c ∧ t.donor = some c.other

/-! ### Store and link -/

/-- A store operation's ids rise, its snapshot holds whole records, and the slot in flight is erased
(R191, R192). -/
abbrev StoreOk (st : Store) : Prop :=
  match st.state with
  | .idle => True
  | .writing w =>
    ((w.inFlight :: w.todo).map RecordId.num).Pairwise (· < ·)
      ∧ (∀ r ∈ w.inFlight :: w.todo, (snapshotWords w.snapshot r).length = r.length)
      ∧ (∀ r ∈ w.completed, r.num < w.inFlight.num)
      ∧ st.slots.get w.inFlight = erasedSlot w.inFlight ∧ (w.cancel = true → w.todo = [])

/-- Every slot has the words of its record (R189). -/
abbrev SlotsOk (st : Store) : Prop := ∀ r ∈ RecordId.all, (st.slots.get r).words.length = r.length

/-- The queue holds one entry for a kind at most, each of an enabled kind, with a count of 1..255 (R201,
R202). -/
abbrev QueueOk (l : Link) : Prop :=
  (l.queue.map fun e => e.payload.kind).Nodup
    ∧ (∀ e ∈ l.queue, hasBit l.enabled e.payload.kind = true ∧ 1 ≤ e.count ∧ e.count ≤ 255)
    ∧ maskWithin 1 12 l.enabled = true

/-- A held reply is a whole reply frame: LEN counts its body, at most 60, and its bytes sum to 0 (R200). -/
abbrev ReplyOk (l : Link) : Prop :=
  ∀ b ∈ l.reply, 5 ≤ b.length ∧ b.length ≤ 65 ∧ (b.getD 3 0).toNat + 5 = b.length ∧ byteSum b = 0

/-! ### Words for the statements about single commands -/

/-- A channel record after a round completion, from the raw code of its conversion (R10 to R12, R14). -/
abbrev ChannelTaken (cal : Words) (n : Nat) (lo hi : Int) (temperature : Bool) (v : Conversion)
    (old new : ChannelRecord) : Prop :=
  let product := (v.code.toInt + cal.getD (3 * n) 0)
    * (10000 + 200 * cal.getD (3 * n + 1) 0 + 10 * cal.getD (3 * n + 2) 0)
  let y := if 0 ≤ product then (product + 5000) / 10000 else -((-product + 5000) / 10000)
  new.raw = v.code.toInt ∧
    if v.saturated = true ∨ temperature = true ∧ (y < lo ∨ hi < y) then
      new.value = old.value ∧ new.age = min 255 (old.age + 1)
    else new.value = clamp lo hi y ∧ new.age = 0

/-- The pending seed's condition is met by a set (R30). -/
abbrev SeedMet (r : CounterRecord) (m : MeasSet) (c : Cell) : Prop :=
  r.seed = .powerOn ∧ m.vcOk c = true
    ∨ r.seed = .requested ∧ m.vcOk c = true ∧ m.currentOk c = true ∧ -100 ≤ m.current c
      ∧ m.current c ≤ 100

/-- A set meets the empty-mark condition (R32). -/
abbrev EmptyMarkMet (s : State) (m : MeasSet) (c : Cell) : Prop :=
  m.vcOk c = true ∧ m.vc c ≤ s.tables.protect.getD 1 0 + 200 ∧ m.currentOk c = true ∧ m.current c < 0

/-- The part after a counter has taken a set: its record, the moved charge of a transfer to its cell
(R103), and the set gone from those that wait. -/
abbrev CounterTook (s : State) (c : Cell) (rest : List MeasSet) (r : CounterRecord) (t : State) : Prop :=
  t = { s with
    counter := s.counter.set c r
    alloc := { s.alloc with transfer := { s.alloc.transfer with
      moved := s.alloc.transfer.moved +
        (if s.alloc.transfer.active = true ∧ s.alloc.transfer.receiver = some c ∧ 0 < r.lastWhole then
          r.lastWhole else 0) } }
    handed := { s.handed with counterSet := s.handed.counterSet.set c rest } }

/-- b is the plain candidate of a temperature (R61). -/
abbrev PlainBand (bands : Words) (temp : Int) (b : Nat) : Prop :=
  1 ≤ b ∧ b ≤ 6 ∧ (b ≤ 5 → temp < Bands.tHi bands b) ∧ ∀ i, 1 ≤ i → i < b → Bands.tHi bands i ≤ temp

/-- A temperature lies in the widened range of a band (R61). -/
abbrev Widened (bands : Words) (temp : Int) (b : Nat) : Prop :=
  (b = 1 ∨ Bands.tHi bands (b - 1) - Bands.hyst bands ≤ temp)
    ∧ (b = 6 ∨ temp < Bands.tHi bands b + Bands.hyst bands)

/-- The band temperature of a set (R60). -/
def bandTemperature (s : State) (c : Cell) (m : MeasSet) : Option Int :=
  if m.tempOk c = false then none
  else if s.hinge.position = .closed ∧ s.hinge.settled = true ∧ m.tempOk c.other = true then
    some (max (m.temp c) (m.temp c.other))
  else some (m.temp c)

/-- The record after step 1 of a set (R59). -/
abbrev State.afterBand (s : State) (c : Cell) (m : MeasSet) : SeqRecord :=
  Seq.bandStep (s.seqEnvOn c m) (bandTemp m c s.folded) (s.coupledOn c m) (s.seq.get c)

/-- The profile that a sequencer handles sets against (R51). -/
abbrev State.prof (s : State) (c : Cell) : Words := (s.seen.get c).prof

/-- The band table that a sequencer handles sets against (R51). -/
abbrev State.bandsOf (s : State) (c : Cell) : Words := (s.seen.get c).bands

/-- The active tables of a cell and VC, as they stand (R2, R8, R58, R66). -/
abbrev State.inForce (s : State) (c : Cell) : SeqSeen :=
  ⟨(s.tables.profile.get c).active, s.tables.bands.active, (s.vc c).value, (s.vc c).age⟩

/-- The active tables of a cell, with VC as the set handled last left it (R51, R75). -/
abbrev State.inForceHeld (s : State) (c : Cell) : SeqSeen :=
  { s.inForce c with vc := (s.seen.get c).vc, age := (s.seen.get c).age }

/-- The part after an event between sets has given a record: a stage beyond NSTAGE of the profile that sets
are handled against makes it the active profile (R41). -/
abbrev State.holdsStage (s : State) (c : Cell) (r : SeqRecord) : State :=
  let v := s.seen.get c
  let held := if r.k ≤ (v.prof.getD 5 0).toNat then v
    else { v with prof := (s.tables.profile.get c).active }
  { s with seen := s.seen.set c held }

/-- The part with VC of a set as what a sequencer holds. -/
abbrev State.sawSet (s : State) (c : Cell) (m : MeasSet) : State :=
  { s with seen := s.seen.set c ⟨s.prof c, s.bandsOf c, m.vc c, m.vcAge c⟩ }

/-- The part with the copy that a promotion made active as the one that sets are handled against. -/
abbrev State.sawPromotion (s : State) (c : Cell) : Promoted → State
  | .profile w => { s with seen := s.seen.set c { s.seen.get c with prof := w } }
  | .bands w => { s with seen := s.seen.set c { s.seen.get c with bands := w } }

/-- The time a set adds to a timer of a record in this band (R73). -/
def timeAdded (bands : Words) (band : Nat) (dt : Nat) : Int :=
  if Bands.pct bands band = 100 then dt else dt / 2

/-- Every field of a sequencer record that going to a resting state clears (R63, R75). -/
abbrev Cleared (r : SeqRecord) (state : SeqState) : Prop :=
  r.state = state ∧ r.k = 0 ∧ r.full = .none ∧ r.adv = 0 ∧ r.term = 0 ∧ r.pre = 0 ∧ r.fast = 0
    ∧ r.demand = 0

/-- The outcome of an entry evaluation whose timers stand at pre and fast (R66, R69, R74). -/
def entryOutcome (v : SeqSeen) (grant : Int) (old : SeqRecord) (pre fast : Int) :
    SeqRecord → Prop := fun r =>
  let prof := v.prof
  let bands := v.bands
  let vfull := prof.getD 0 0 - Bands.voff bands old.band
  let pct := Bands.pct bands old.band
  let n := (prof.getD 5 0).toNat
  let same (q : SeqRecord) : Prop :=
    r = { q with band := old.band, reasons := old.reasons, ceiling := old.ceiling, bandT := old.bandT,
                 coupled := old.coupled, adv := 0, term := 0, full := .none }
  if 2 < v.age then
    same { old with state := .absent, k := 0, pre := 0, fast := 0, demand := 0 }
  else if old.reasons.any = true then
    same { old with state := .paused, k := 0, pre := pre, fast := fast, demand := 0 }
  else if v.vc < prof.getD 2 0 then
    same { old with
      state := .precharge, k := 0, pre := pre, fast := fast, demand := downTo 25 (prof.getD 3 0) }
  else if v.vc < vfull then
    r.state = .fast ∧
      ∀ k, 1 ≤ k → k ≤ n → v.vc < min (prof.getD (10 + k) 0) vfull →
        (∀ i, 1 ≤ i → i < k → min (prof.getD (10 + i) 0) vfull ≤ v.vc) →
        same { old with
          state := .fast, k := k, pre := pre, fast := fast
          demand := downTo 25 ((prof.getD (5 + k) 0 * pct).fdiv 100) }
  else
    same { old with
      state := .taper, k := 0, pre := pre, fast := fast, lastGrant := grant
      demand := downTo 25 (min grant (downTo 25 ((prof.getD (5 + n) 0 * pct).fdiv 100))) }

/-- A link with the notice of a sequencer's change of state, stage or band (R79). -/
def State.noticed (s : State) (c : Cell) (r : SeqRecord) (l : Link) : Link :=
  if (s.seq.get c).state = r.state ∧ (s.seq.get c).k = r.k ∧ (s.seq.get c).band = r.band then l
  else l.notify s.alloc.frame.number (.charge c r.state r.k r.full r.band r.reasons)

/-- The part with one sequencer's record replaced, and the notice of a change of state, stage or band
(R79). -/
abbrev SeqTook (s : State) (c : Cell) (r : SeqRecord) (h : Handed) (t : State) : Prop :=
  t = { s with seq := s.seq.set c r, handed := h, link := s.noticed c r s.link }

/-- The condition of a kind as a set leaves it, from the thresholds in force (R156, R159, R160). -/
def conditionAfter (w : Words) (m : MeasSet) (old : Bool) : FaultKind → Bool :=
  let high (age : Nat) (v level gap : Int) : Bool :=
    if 2 < age then old else if level < v then true else if v < level - gap then false else old
  let low (age : Nat) (v level gap : Int) : Bool :=
    if 2 < age then old else if v < level then true else if level + gap ≤ v then false else old
  fun
  | .nOv => high m.age.vcn m.value.vcn (w.getD 0 0) 100
  | .fOv => high m.age.vcf m.value.vcf (w.getD 0 0) 100
  | .nUv => low m.age.vcn m.value.vcn (w.getD 1 0) 200
  | .fUv => low m.age.vcf m.value.vcf (w.getD 1 0) 200
  | .nOc => old
  | .fOc => old
  | .nOt => high m.age.tn m.value.tn (w.getD 2 0) 50
  | .fOt => high m.age.tf m.value.tf (w.getD 2 0) 50
  | .nNtc => decide (2 < m.age.tn)
  | .fNtc => decide (2 < m.age.tf)
  | .fSense =>
    if 2 < m.age.vcf then true
    else if 2 < m.age.vfn then old
    else if 500 < (m.value.vfn - m.value.vcf).natAbs then true
    else if (m.value.vfn - m.value.vcf).natAbs ≤ 300 then false
    else old
  | .dieOt => high m.age.tdie m.value.tdie 1250 150
  | .sysUv => low m.age.vsys m.value.vsys 3200 200

/-- The effective state of an order under a restriction, as a table (R116). CLOSED stands for CLOSED or
RAMP. -/
def orderTable : Order → Restriction → Effective
  | .openPath, _ => .openPath
  | _, .blockAll => .openPath
  | .diode, .blockDischarge => .openPath
  | .diode, _ => .diode
  | .limit _, .blockDischarge => .openPath
  | .limit x, _ => .limit x
  | .regulate x, .blockDischarge => .chargeOnly x
  | .regulate _, .blockCharge => .diode
  | .regulate x, _ => .regulate x
  | .closed, .blockCharge => .diode
  | .closed, .blockDischarge => .openPath
  | .closed, _ => .closed

/-- The order as the input and the hinge condition it (R115). -/
def orderConditioned (s : State) (c : Cell) (o : Order) : Order :=
  let held := c = .far ∧ s.hinge.settled = false
  let cap (x : Int) : Int := downTo 25 (min x (s.tables.limits.getD 7 0))
  match o with
  | .closed => if s.input.state = .active ∨ held then .diode else .closed
  | .limit x => if held then if cap x = 0 then .diode else .limit (cap x) else .limit x
  | .regulate x => if held then if cap x = 0 then .diode else .regulate (cap x) else .regulate x
  | .openPath => .openPath
  | .diode => .diode

/-- A path record that has been recomputed under its order and restriction (R115 to R117, R119, R126). -/
abbrev Recomputed (s : State) (c : Cell) (old new : PathRecord) : Prop :=
  let e := orderTable (orderConditioned s c new.ordered) new.restriction
  if e = .closed then
    if old.eff = .closed ∨ old.eff = .ramp then
      new.eff = old.eff ∧ new.ramp = old.ramp ∧ new.armed = old.armed
    else new.eff = .ramp ∧ new.ramp = some (10 * (s.tables.limits.getD 12 0).toNat) ∧ new.armed = old.armed
  else new.eff = e ∧ new.ramp = none ∧ (new.armed = true ↔ old.armed = true ∨ e = .openPath)

/-- The part with one path's record replaced, and what was handed on. -/
abbrev PathTook (s : State) (c : Cell) (o : Order) (restriction : Restriction) (h : Handed) (t : State) :
    Prop :=
  ∃ p, t = { s with path := s.path.set c p, handed := h } ∧ p.ordered = o ∧ p.restriction = restriction
    ∧ Recomputed s c (s.path.get c) p

/-- The part after a change of state of the input stage: the notice (R143), the signals (R137), the
qualification timer (R134) and SD (R134, R136). -/
abbrev InputMoved (s : State) (new : InputState) (t : State) : Prop :=
  t = { s with
    input := { s.input with
      state := new
      qual := if new = .qualifying then some (10 * (s.tables.limits.getD 2 0).toNat) else none
      sd := if new = .active then 1000 else s.input.sd }
    link := s.link.notify s.alloc.frame.number
      (.input new s.input.state s.input.reasons s.input.ilim
        (if new = .active then 1000 else s.input.sd))
    handed :=
      if new = .active then { s.handed with
        seqSignal := ⟨s.handed.seqSignal.near ++ [.granted], s.handed.seqSignal.far ++ [.granted]⟩
        pathSignal := ⟨s.handed.pathSignal.near ++ [.granted], s.handed.pathSignal.far ++ [.granted]⟩
        allocSignal := s.handed.allocSignal ++ [.granted] }
      else if s.input.state = .active then { s.handed with
        seqSignal := ⟨s.handed.seqSignal.near ++ [.withdrawn], s.handed.seqSignal.far ++ [.withdrawn]⟩
        pathSignal := ⟨s.handed.pathSignal.near ++ [.withdrawn], s.handed.pathSignal.far ++ [.withdrawn]⟩
        allocSignal := s.handed.allocSignal ++ [.withdrawn] }
      else s.handed }

/-- The set of suspend reasons becomes the one given, and the input stage follows (R136). -/
abbrev ReasonsTook (s : State) (new : SuspendReasons) (t : State) : Prop :=
  let u := { s with input := { s.input with reasons := new } }
  if s.input.state = .active ∧ s.input.reasons.any = false ∧ new.any = true then
    InputMoved u .suspended t
  else if s.input.state = .suspended ∧ s.input.reasons.any = true ∧ new.any = false then
    InputMoved u .active t
  else t = u

/-- The counters after n words of GAUGE have come into force from an offset on, the whole table now being
new: CAP, Q, the residue and learning of each cell whose CAP is among them (R36). -/
abbrev CapsForced (s : State) (offset n : Nat) (new : Words) (u : State) : Prop :=
  ∀ c,
    let i : Nat := match c with
      | .near => 0
      | .far => 1
    let old := s.counter.get c
    let cap := new.getD i 0
    if offset ≤ i ∧ i < offset + n then
      u.counter.get c = { old with
        cap := cap, q := min old.q (cap * 1000)
        residue := if cap * 1000 < old.q then 0 else old.residue, learning := .idle }
    else u.counter.get c = old

/-- The paths after n words of LIMITS have come into force from an offset on: a HINGE_CAP among them
recomputes the far path while the hinge is not settled (R115). -/
abbrev CapReachesThePath (s : State) (offset n : Nat) (u : State) : Prop :=
  if (offset ≤ 7 ∧ 7 < offset + n) ∧ s.hinge.settled = false then
    u.path.near = s.path.near ∧ u.path.far.ordered = s.path.far.ordered
      ∧ u.path.far.restriction = s.path.far.restriction
      ∧ Recomputed { s with tables := u.tables } .far s.path.far u.path.far
  else u.path = s.path

/-- What changes of the fault records hand on: one change to each path and to the input stage whose kinds
have one that came into force or lifted (R161, R169, R170). -/
abbrev FaultsHanded (s u : State) : Prop :=
  let changed (ks : List FaultKind) : Prop :=
    ∃ k ∈ ks, (s.prot.record.get k).inForce ≠ (u.prot.record.get k).inForce
  u.handed = { s.handed with
    pathBlocks :=
      ⟨s.handed.pathBlocks.near
          ++ (if changed (pathKinds .near) then [blocksOn u.prot.record .near] else []),
        s.handed.pathBlocks.far
          ++ (if changed (pathKinds .far) then [blocksOn u.prot.record .far] else [])⟩
    die := s.handed.die ++ (if changed [.dieOt] then [u.prot.record.dieOt.inForce] else []) }

/-- The fault records after the words of PROTECT have come into force: the in-force flag of each kind whose
class changes is judged again, and each receiver is handed one change (R161, R165, R169, R170). -/
abbrev ClassesForced (s : State) (new : Words) (u : State) : Prop :=
  u.prot.retry = s.prot.retry
    ∧ (∀ k ∈ FaultKind.all,
        let old := s.prot.record.get k
        u.prot.record.get k =
          if Protect.classOf s.tables.protect k.num = Protect.classOf new k.num then old
          else { old with inForce := judge (Protect.classOf new k.num) old.active old.latched })
    ∧ FaultsHanded s u

/-- What a promotion of these words hands on: one event to each sequencer that reads the table (R51). -/
abbrev PromotionHanded (s : State) (r : RecordId) (words : Words) (u : State) : Prop :=
  let event : Promoted := if r = .bands then .bands words else .profile words
  let goes (c : Cell) : Prop := r = .bands ∨ (r = .profileN ∧ c = .near) ∨ (r = .profileF ∧ c = .far)
  u.handed = { s.handed with
    seqPromotion :=
      ⟨s.handed.seqPromotion.near ++ (if goes .near then [event] else []),
        s.handed.seqPromotion.far ++ (if goes .far then [event] else [])⟩ }

/-- The part after n words of a table 4..8 have come into force from an offset on, the whole table now
being new: the table itself, CAP and learning under GAUGE (R36), the far path under LIMITS (R115), and the
fault records under PROTECT (R165); everything else stays. -/
abbrev TableForced (s : State) (r : RecordId) (offset n : Nat) (new : Words) (u : State) : Prop :=
  u.recordWords r = new ∧ (∀ q, q ≠ r → u.recordWords q = s.recordWords q)
    ∧ u = { s with
        tables := u.tables, counter := u.counter, path := u.path, prot := u.prot, handed := u.handed }
    ∧ (r ≠ .gauge → u.counter = s.counter) ∧ (r ≠ .limits → u.path = s.path)
    ∧ (r ≠ .protect → u.prot = s.prot ∧ u.handed = s.handed)
    ∧ (r = .gauge → CapsForced s offset n new u)
    ∧ (r = .limits → CapReachesThePath s offset n u)
    ∧ (r = .protect → ClassesForced s new u)

/-- The part after an end of a transfer on an event between frames (R83, R106, R123). -/
abbrev TransferEnded (s : State) (cause : EndCause) (t : State) : Prop :=
  let r := s.alloc.transfer
  let u := { s with
    alloc := { s.alloc with
      frame := { s.alloc.frame with
        transferActive := false
        order := match r.receiver with
          | none => s.alloc.frame.order
          | some c => s.alloc.frame.order.set c .diode }
      transfer := { r with
        active := false, lastEnd := cause, cooldown := (s.tables.balance.getD 8 0).toNat } }
    link := s.link.notify s.alloc.frame.number (.transfer cause r.donor r.receiver r.moved r.frames) }
  match r.receiver with
  | none => t = u
  | some c => PathTook u c .diode (s.path.get c).restriction s.handed t

/-! ### Words for the statements about the allocator's frame -/

/-- The limit of the cell with the lower SOC, from the deficit and Δ (R94, and steps 1 and 2 of R95). -/
def lowerLimit (s : State) (deficit delta : Int) : Int :=
  let low := clamp 0 500 (500 - (delta.natAbs * s.tables.balance.getD 0 0).tdiv 4)
  let floor := -((s.factory.idisMax - deficit).fdiv 25 * 25)
  clamp 25 s.factory.idisMax (max (((deficit * low).fdiv 1000).fdiv 25 * 25) floor)

/-- The cell that discharge sharing limits, with its limit; none for the limit where HINGE_CAP brings it to 0
(R94, R95). -/
def limitedCell (s : State) (deficit delta : Int) : Option (Cell × Option Int) :=
  let l := lowerLimit s deficit delta
  let capped := (min l (s.tables.limits.getD 7 0)).fdiv 25 * 25
  if (delta.natAbs : Int) ≤ s.tables.balance.getD 1 0 then none
  else if 0 < delta then some (.near, some l)
  else if s.hinge.settled = true then some (.far, some l)
  else some (.far, if capped = 0 then none else some capped)

/-- The order of a path under discharge sharing: LIMIT(L) on the limited cell, or DIODE where it has no
limit, and the other order on any other cell (R96, R97). -/
def sharedOrder (limited : Option (Cell × Option Int)) (other : Cell → Order) (c : Cell) : Order :=
  match limited with
  | some (d, l) => if c = d then ((l.map Order.limit).getD .diode) else other c
  | none => other c

/-- The closing conditions for a path (R97). -/
abbrev Closes (s : State) (m : MeasSet) (c : Cell) : Prop :=
  m.age.vcn ≤ 2 ∧ m.age.vcf ≤ 2
    ∧ ((m.value.vcn - m.value.vcf).natAbs : Int) ≤ s.tables.limits.getD 11 0
    ∧ s.hinge.settled = true ∧ (s.path.get c).restriction = .none

/-- VFULL_eff of a cell from the active tables and the band of its sequencer, less 100 mV (R58, R101). -/
def transferTop (s : State) (c : Cell) : Int :=
  (s.tables.profile.get c).active.getD 0 0
    - Bands.voff s.tables.bands.active (s.seq.get c).band - 100

/-- The transfer current for a receiver (R101, condition 13). -/
def currentFor (s : State) (c : Cell) : Int :=
  ((s.tables.balance.getD 5 0 * Bands.pct s.tables.bands.active (s.seq.get c).band).fdiv 100).fdiv 25 * 25

/-- A receiver's sequencer is ABSENT, or its band gives no charge (R101, conditions 9 and 10; R104, check
6). -/
abbrev BarredAsReceiver (s : State) (c : Cell) : Prop :=
  (s.seq.get c).band = 0 ∨ Bands.pct s.tables.bands.active (s.seq.get c).band = 0
    ∨ (s.seq.get c).state = .absent

/-- Conditions 2 and 4 to 13 of a transfer's start, for a receiver (R101). -/
abbrev MayTransferTo (s : State) (m : MeasSet) (c : Cell) : Prop :=
  let gap : Int := (s.soc .far - s.soc .near).natAbs
  s.alloc.enable = true ∧ s.hinge.settled = true
    ∧ m.value.iload ≤ s.tables.balance.getD 6 0 ∧ s.tables.balance.getD 3 0 ≤ gap
    ∧ 150 ≤ s.soc c.other ∧ s.path.near.restriction = .none ∧ s.path.far.restriction = .none
    ∧ ¬ BarredAsReceiver s c ∧ s.inhibit.get c = 0
    ∧ m.vcOk c = true ∧ m.vc c < transferTop s c ∧ 100 ≤ currentFor s c

/-- The first frame check that ends a transfer (R104). -/
def endingCheck (s : State) (m : MeasSet) (donor receiver : Cell) : Option EndCause :=
  let gap : Int := (s.soc .far - s.soc .near).natAbs
  if gap ≤ s.tables.balance.getD 4 0 ∨ s.soc donor ≤ s.soc receiver then some .done
  else if s.tables.balance.getD 6 0 + 200 < m.value.iload then some .load
  else if m.vcOk receiver = true ∧ transferTop s receiver ≤ m.vc receiver then some .full
  else if s.tables.balance.getD 7 0 * 1000 ≤ s.alloc.transfer.moved then some .limit
  else if s.soc donor < 150 then some .donor
  else if BarredAsReceiver s receiver then some .band
  else none

/-- What the transfer step of a frame that passes the HOLD test leaves of the transfer record and the link,
the frame's number being given (R102, R104, R106, R107). -/
abbrev TransferStepped (s : State) (m : MeasSet) (number : Nat) (t : State) : Prop :=
  let old := s.alloc.transfer
  let cooled := { old with cooldown := old.cooldown - 1 }
  let counted := { cooled with frames := min 65535 (old.frames + 1) }
  let receiver : Cell := if s.soc .near < s.soc .far then .near else .far
  let starts := old.cooldown ≤ 1 ∧ MayTransferTo s m receiver
  (s.input.state = .active → t.alloc.transfer = cooled ∧ t.link = s.link)
    ∧ (s.input.state ≠ .active → old.active = true →
        ∀ d r, old.donor = some d → old.receiver = some r →
          (endingCheck s m d r = none → t.alloc.transfer = counted ∧ t.link = s.link)
            ∧ ∀ cause, endingCheck s m d r = some cause →
              t.alloc.transfer = { counted with
                  active := false, lastEnd := cause, cooldown := (s.tables.balance.getD 8 0).toNat }
                ∧ t.link = s.link.notify number
                    (.transfer cause (some d) (some r) old.moved counted.frames))
    ∧ (s.input.state ≠ .active → old.active = false →
        (starts → t.alloc.transfer = { cooled with
            active := true, donor := some receiver.other, receiver := some receiver
            current := currentFor s receiver, moved := 0, frames := 0 })
          ∧ (¬ starts → t.alloc.transfer = cooled) ∧ t.link = s.link)

/-- The table of R133: the state after an edge that has left these filtered levels. -/
def edgeTable (present ov : Bool) : Comparator → InputState → InputState
  | .present, .detached => if present ∧ ¬ov then .qualifying else .detached
  | .present, state => if present then state else .detached
  | .ov, state =>
    if ov then .blocked
    else if state = .detached ∨ state = .blocked then if present then .qualifying else .detached
    else state

end Sys2Proof.Machine
end

