-- ==== Sys2Proof/WellFormed.lean ====
section
/-! DEFINITION. WellFormed.lean: which terms of Instr are commands that the part can be given: the operands lie where the rules put them. -/

namespace Sys2Proof

/-- "For a saturated conversion, the raw code holds the converter's limit code on the side on which it
saturated" (R9). No rule gives the two limit codes: that they are the ends of the code range of R6, 0x7FFF
and 0x8000, is the model's choice (log 39). -/
def Conversion.wf (v : Conversion) : Bool :=
  !v.saturated || v.code == 0x7FFF || v.code == 0x8000

/-- The term stands for a command: a bad frame fails a check, an unknown kind has no code, a body
length is wrong, a READ row does not carry another row's function code, and the final flag and the
count of words are as the row says (R9, R198, R202, R211). -/
def Instr.wf : Instr → Bool
  | .roundCompletion v =>
    v.vbus.wf && v.ibus.wf && v.vsys.wf && v.iload.wf && v.vcn.wf && v.icn.wf && v.vcf.wf
      && v.icf.wf && v.vfn.wf && v.tn.wf && v.tf.wf && v.tdie.wf
  | .badRequestFrame bytes => !bytes.isEmpty && !frameGood bytes
  | .unknownRequest kind _ body => (RequestKind.ofCode kind).isNone && decide (body.length ≤ 60)
  | .lengthError kind tag body =>
    decide (body.length ≤ 60) &&
      match RequestKind.ofCode kind with
      | none => false
      | some k => (requestOf k tag body).isNone
  | .inputSuspendRead _ func => func != 1 && func != 2
  | .inhibitTest _ func _ _ => func != 0 && func != 1 && func != 2 && func != 4
  | .balanceRead _ func => func != 1 && func != 2 && func != 3
  | .noticeMaskRead _ func _ => func != 1
  | .tableWrite _ _ _ flags words => !flags.getLsbD 0 && decide (words.length ≤ 28)
  | .tableWriteFinal _ _ _ flags words => flags.getLsbD 0 && decide (words.length ≤ 28)
  | .powerOnReset | .powerOnLoad | .powerOnLoadCompletion | .roundTimerExpiry
  | .counterSetSteps _ | .fullMark _ | .sequencerSetHandling _ | .safetyTimerExpiry _
  | .seqInputGranted _ | .seqInputWithdrawn _ | .seqInhibitEvent _ | .seqFaultReasonUpdate _
  | .seqPromotion _ | .protectionSetReaction | .inputSagDerateStep | .allocationFrame
  | .transferEventEnd _ | .pathOrderDelivery _ | .pathRestrictionChange _ | .rampTimerExpiry _
  | .pathInputGranted _ | .pathInputWithdrawn _ | .pathHingeUnsettled | .grantsClearedOnWithdrawal
  | .farGrantHingeCap | .overcurrentTrip _ _ | .tripRearm _ _ | .retryTimerExpiry _
  | .dieSuspendReasonChange | .comparatorRawChange _ | .attachFilterExpiry _ | .qualificationExpiry
  | .foldRawChange _ _ | .hingeFilterExpiry _ | .settleTimerExpiry | .startupSampleExpiry
  | .recordCompletion | .supervisorExpiry | .emptyWrite | .readReply _ | .identify _ | .status _
  | .measure _ _ | .cell _ _ _ | .allocation _ | .faults _ _ | .inputLimit _ _ _
  | .inputSuspendSuspend _ | .inputSuspendResume _ | .ceiling _ _ _ | .inhibitSelect _ _ _
  | .inhibitSet _ _ _ | .inhibitClear _ _ _ | .inhibitEmptySelect _ _ _ | .faultClear _ _
  | .chargeRestart _ _ | .gaugeSeed _ _ | .balanceEnable _ | .balanceDisable _ | .balanceCancel _
  | .tableRead _ _ _ _ | .store _ _ | .load _ _ | .storeCancel _ | .noticeFetch _
  | .noticeMaskWrite _ _ | .softReset _ => true

end Sys2Proof
end

