-- ==== Sys2Proof/Certificates/Slice0/Obligations.lean ====
section
/-! DEFINITION. Certificates/Slice0/Obligations.lean: the statements about the part that are to be proved. -/

open Sys2Proof Sys2Proof.Machine

/-! ### Steps -/

/-- A step with a command at the front of the queue is that command on the state with the queue's rest.
The model's own part in it: log 1. -/
def Obligations.StepRunsTheFrontCommand : Prop :=
  ∀ (c : Instr) (s : State) (rest : List Instr),
    step { s with pending := c :: rest } = exec c { s with pending := rest }

/-- On an empty queue a tenth of a millisecond passes: every timer that runs counts down, stopping at 0,
and nothing else changes. The model's choice (log 3).
The model's own part in it: log 3. -/
def Obligations.EmptyQueueLetsATenthPass : Prop :=
  ∀ s : State, s.pending = [] →
    let down (t : Option Nat) : Option Nat := t.map (· - 1)
    step s = .next { s with
      meas := { s.meas with roundTimer := down s.meas.roundTimer }
      path := ⟨{ s.path.near with ramp := down s.path.near.ramp },
               { s.path.far with ramp := down s.path.far.ramp }⟩
      input := { s.input with
        present := { s.input.present with timer := down s.input.present.timer }
        ov := { s.input.ov with timer := down s.input.ov.timer }
        qual := down s.input.qual }
      hinge := { s.hinge with
        foldA := { s.hinge.foldA with timer := down s.hinge.foldA.timer }
        foldB := { s.hinge.foldB with timer := down s.hinge.foldB.timer }
        settle := down s.hinge.settle
        startup := down s.hinge.startup }
      prot := { s.prot with retry := ⟨down s.prot.retry.near, down s.prot.retry.far⟩ }
      link := { s.link with supervisor := down s.link.supervisor } }

/-- Every command is answered with a next state, in every state; no command touches the queue or the
factory block.
The model's own part in it: log 2, 33. -/
def Obligations.EveryCommandAnswersANextState : Prop :=
  ∀ (c : Instr) (s : State),
    ∃ t, exec c s = .next t ∧ t.pending = s.pending ∧ t.factory = s.factory

/-! ### Power-on -/

/-- POWER_ON_RESET leaves every block at its power-on values, with every table at its defaults; the factory
block, the slots, the defaulted set and the raw levels stay.
The model's own part in it: log 10, 12, 29, 41. -/
def Obligations.PowerOnResetGivesPowerOnValues : Prop :=
  ∀ s : State, ∃ t, exec .powerOnReset s = .next t
    ∧ t.meas = ⟨none, none, 0, PerChannel.all ⟨0, 0, 255⟩, 0, false⟩
    ∧ t.counter = ⟨⟨0, 0, s.factory.dcapN, .powerOn, .idle, 0, 0, none⟩,
        ⟨0, 0, s.factory.dcapF, .powerOn, .idle, 0, 0, none⟩⟩
    ∧ t.seq.near = ⟨.idle, 0, .none, 0, ⟨s.factory.bootHold, true, false⟩, 0, 0, 0, 0, 0, 1000, none,
        false, 0⟩
    ∧ t.seq.far = t.seq.near
    ∧ (let profile (imax : Int) : Words :=
        let vfull := (min 4400 s.factory.vmax).fdiv 10 * 10
        [vfull, 100, 3000, 150, 100, 3, min 3000 imax, min 2000 imax, min 1200 imax, min 1200 imax,
          min 1200 imax, 3900, 4150, vfull, vfull, vfull, 30, 300]
      let bands : Words :=
        [20, 0, 0, 0, 100, 30, 100, 200, 70, 0, 450, 100, 0, 500, 50, 150, 1200, 0, 0]
      t.tables =
          { profile := ⟨⟨profile s.factory.imaxN, profile s.factory.imaxN, false⟩,
              ⟨profile s.factory.imaxF, profile s.factory.imaxF, false⟩⟩
            bands := ⟨bands, bands, false⟩
            limits := [500, 4500, 150, 900, 100, 100, 30, 500, 300, 120, 1000, 40, 20]
            balance := [4, 20, 1, 100, 30, 300, 300, 500, 300]
            protect := [4550, 2800, 600, 1000, 2, 2, 1, 1, 2, 2, 1, 1, 1, 1, 1, 1, 0]
            cal := List.replicate 36 0
            ocv := [3300, 3560, 3640, 3700, 3750, 3800, 3870, 3950, 4050, 4170, 4300] }
        ∧ t.seen = ⟨⟨profile s.factory.imaxN, bands, 0, 255⟩, ⟨profile s.factory.imaxF, bands, 0, 255⟩⟩)
    ∧ t.path = ⟨⟨.diode, .none, .diode, none, true⟩, ⟨.diode, .none, .diode, none, true⟩⟩
    ∧ t.input = ⟨.detached, ⟨s.input.present.raw, false, none⟩, ⟨s.input.ov.raw, false, none⟩, none,
        ⟨false, false⟩, 500, 4500, 1000⟩
    ∧ t.hinge = ⟨⟨s.hinge.foldA.raw, false, none⟩, ⟨s.hinge.foldB.raw, false, none⟩, false, none, none, 0⟩
    ∧ (∀ k, t.prot.record.get k = ⟨false, false, false, 0, 0⟩) ∧ t.prot.retry = ⟨none, none⟩
    ∧ t.alloc.frame =
        { number := 0, mode := .battery, ilim := 0, sd := 0, vbus := 0, vsys := 0, iload := 0
          soc := ⟨0, 0⟩, demand := ⟨0, 0⟩, capOut := 0, headroom := 0, capped := ⟨0, 0⟩, wN := 500
          grant := ⟨0, 0⟩, limit := none, order := ⟨.diode, .diode⟩, transferActive := false }
    ∧ t.alloc.transfer = ⟨false, none, none, 0, 0, 0, .none, 0⟩ ∧ t.alloc.enable = true
    ∧ t.inhibit = (if s.factory.bootHold then ⟨1, 1⟩ else ⟨0, 0⟩)
    ∧ t.store = { s.store with state := .idle }
    ∧ t.link = { reply := none, queue := [], enabled := 0x1FFE, supervisor := none, lastRead := [] }
    ∧ t.handed = nothingHanded ∧ t.phase = .reset ∧ t.factory = s.factory ∧ t.fresh = s.fresh

/-- POWER_ON_LOAD, taken once after power-on reset: a record whose slot fails its checksum, or a profile or
band record that fails a check, takes its defaults and joins the defaulted set; any other is brought in,
with its words adjusted, and comes into force with what it does to CAP, to the far path and to the fault
records; each pending copy equals its active copy, CLEAN; no notice is queued and no promotion event is
issued. Outside that phase the event does not wait and nothing changes (log 2); a HINGE_CAP that is brought in
recomputes the far path while the hinge is not settled (log 36).
The model's own part in it: log 2, 23, 32, 36, 41. -/
def Obligations.PowerOnLoadBringsInOrDefaults : Prop :=
  (∀ s : State, s.phase ≠ .reset → exec .powerOnLoad s = .next s)
  ∧ ∀ s : State, s.phase = .reset →
    let passes (r : RecordId) : Bool := slotPasses r (s.store.slots.get r)
    let words (r : RecordId) : List Word := (s.store.slots.get r).words
    let count (r : RecordId) : Nat := if passes r then (words r).length else r.length
    ∃ t, exec .powerOnLoad s = .next t
      ∧ t = { s with
          phase := .loaded, tables := t.tables, seen := t.seen, counter := t.counter, path := t.path
          prot := t.prot, store := { s.store with defaulted := t.store.defaulted }
          handed := { s.handed with
            pathBlocks := t.handed.pathBlocks, die := t.handed.die } }
      ∧ (∀ r fields k, (r, fields, k) ∈ [(RecordId.profileN, profileFields, t.tables.profile.near),
            (.profileF, profileFields, t.tables.profile.far), (.bands, bandFields, t.tables.bands)] →
          let w := adjustWords fields 0 (words r)
          if passes r = true ∧ checkOf s.factory r w = 0 then
            k = ⟨w, w, false⟩ ∧ t.store.defaulted.getLsbD r.num = false
          else k = ⟨defaultWords s.factory r, defaultWords s.factory r, false⟩
            ∧ t.store.defaulted.getLsbD r.num = true)
      ∧ (∀ r : RecordId, 4 ≤ r.num →
          t.recordWords r = (if passes r then (s.broughtIn r 0 (words r)).1 else defaultWords s.factory r)
            ∧ t.store.defaulted.getLsbD r.num = !passes r)
      ∧ CapsForced s 0 (count .gauge) (t.recordWords .gauge) t
      ∧ CapReachesThePath s 0 (count .limits) t ∧ ClassesForced s (t.recordWords .protect) t
      ∧ ∀ c, t.seen.get c = { s.seen.get c with
          prof := (t.tables.profile.get c).active, bands := t.tables.bands.active }

/-- POWER_ON_LOAD_COMPLETION: the round timer, the comparator filters and the hinge start-up sample start,
the host settings take their defaults, and the link opens with POWERUP and, when a record was defaulted,
DEFAULTED.
The model's own part in it: log 11. -/
def Obligations.PowerOnLoadCompletionOpensThePart : Prop :=
  ∀ s : State, s.phase = .loaded →
    exec .powerOnLoadCompletion s = .next { s with
      phase := .running
      meas := { s.meas with roundTimer := some (10 * (s.tables.limits.getD 5 0).toNat) }
      input := { s.input with
        ilim := clamp 100 3000 ((s.tables.limits.getD 0 0).fdiv 25 * 25)
        vfloor := clamp 4200 12000 ((s.tables.limits.getD 1 0).fdiv 50 * 50)
        present := { s.input.present with
          timer := if s.input.present.raw = s.input.present.level then none
            else some s.factory.attachFilter }
        ov := { s.input.ov with
          timer := if s.input.ov.raw = s.input.ov.level then none else some s.factory.attachFilter } }
      hinge := { s.hinge with startup := some (10 * s.factory.hingeFilter) }
      alloc := { s.alloc with enable := s.tables.balance.getD 2 0 != 0 }
      link :=
        { reply := none, enabled := 0x1FFE, supervisor := none, lastRead := []
          queue := ⟨.powerup .powerOn, 1, s.alloc.frame.number⟩ ::
            if s.store.defaulted = 0 then []
            else [⟨.defaulted s.store.defaulted, 1, s.alloc.frame.number⟩] } }

/-! ### Measurement -/

/-- ROUND_TIMER_EXPIRY restarts the timer with the ROUND_MS in force and starts a round with it as Δt; with
time left on the timer or a round in flight it does not take place. Only a power-on reset stops the timer.
The model's own part in it: log 3, 24. -/
def Obligations.RoundTimerExpiryStartsARound : Prop :=
  (∀ s : State, s.meas.roundTimer = some 0 → s.meas.inFlight = none →
    exec .roundTimerExpiry s = .next { s with meas := { s.meas with
      roundTimer := some (10 * (s.tables.limits.getD 5 0).toNat)
      inFlight := some (s.tables.limits.getD 5 0).toNat } })
  ∧ (∀ s : State, s.meas.roundTimer ≠ some 0 ∨ s.meas.inFlight ≠ none →
    exec .roundTimerExpiry s = .next s)
  ∧ (∀ (c : Instr) (s t : State), c ≠ .powerOnReset → s.meas.roundTimer.isSome → exec c s = .next t →
      t.meas.roundTimer.isSome)
  ∧ (∀ s t : State, exec .powerOnReset s = .next t → t.meas.roundTimer = none)

/-- ROUND_COMPLETION publishes one set, made of the records and the estimate as they stand after it, to
every consumer.
The model's own part in it: log 2, 15. -/
def Obligations.RoundCompletionPublishesOneSet : Prop :=
  ∀ (s : State) (v : PerChannel Conversion) (dt : Nat), s.meas.inFlight = some dt →
    ∃ t m, exec (.roundCompletion v) s = .next t
      ∧ t = { s with
          meas := t.meas
          handed := { s.handed with
            counterSet := ⟨s.handed.counterSet.near ++ [m], s.handed.counterSet.far ++ [m]⟩
            seqSet := ⟨s.handed.seqSet.near ++ [m], s.handed.seqSet.far ++ [m]⟩
            protSet := s.handed.protSet ++ [m]
            inputSet := s.handed.inputSet ++ [m]
            allocSet := s.handed.allocSet ++ [m] } }
      ∧ t.meas.roundTimer = s.meas.roundTimer ∧ t.meas.inFlight = none ∧ t.meas.setDt = dt
      ∧ m.dt = dt ∧ m.value = t.meas.chan.map (·.value) ∧ m.age = t.meas.chan.map (·.age)
      ∧ m.rflex = t.meas.rflex ∧ m.flexValid = t.meas.flexValid

/-- ROUND_COMPLETION updates each of the twelve channel records: an invalid conversion leaves the value and
ages the record, a valid one gives the calibrated value and age 0. A channel is usable at ages 0 to 2. -/
def Obligations.RoundCompletionUpdatesEveryChannel : Prop :=
  (∀ (s : State) (v : PerChannel Conversion) (dt : Nat), s.meas.inFlight = some dt →
    ∃ t, exec (.roundCompletion v) s = .next t ∧
      let cal := s.tables.cal
      let old := s.meas.chan
      let new := t.meas.chan
      ChannelTaken cal 0 0 20000 false v.vbus old.vbus new.vbus
        ∧ ChannelTaken cal 1 0 5000 false v.ibus old.ibus new.ibus
        ∧ ChannelTaken cal 2 0 6000 false v.vsys old.vsys new.vsys
        ∧ ChannelTaken cal 3 0 8000 false v.iload old.iload new.iload
        ∧ ChannelTaken cal 4 0 5000 false v.vcn old.vcn new.vcn
        ∧ ChannelTaken cal 5 (-8000) 8000 false v.icn old.icn new.icn
        ∧ ChannelTaken cal 6 0 5000 false v.vcf old.vcf new.vcf
        ∧ ChannelTaken cal 7 (-8000) 8000 false v.icf old.icf new.icf
        ∧ ChannelTaken cal 8 0 5000 false v.vfn old.vfn new.vfn
        ∧ ChannelTaken cal 9 (-400) 1200 true v.tn old.tn new.tn
        ∧ ChannelTaken cal 10 (-400) 1200 true v.tf old.tf new.tf
        ∧ ChannelTaken cal 11 (-400) 1500 true v.tdie old.tdie new.tdie)
  ∧ (∀ age : Nat, usable age = true ↔ age ≤ 2)
  ∧ (∀ (c : Instr) (s t : State), (∀ v, c ≠ .roundCompletion v) → c ≠ .powerOnReset →
      exec c s = .next t → t.meas.chan = s.meas.chan)

/-- A set that is a flex sample updates RFLEX and sets the valid flag; any other leaves both; the flag
stays set until power-on reset. -/
def Obligations.FlexSampleUpdatesTheEstimate : Prop :=
  (∀ (s : State) (v : PerChannel Conversion) (dt : Nat), s.meas.inFlight = some dt →
    ∃ t, exec (.roundCompletion v) s = .next t ∧
      let a := t.meas.chan
      let r := clamp 0 1000 (((a.vfn.value - a.vcf.value) * 1000).tdiv a.icf.value)
      if a.vfn.age ≤ 2 ∧ a.vcf.age ≤ 2 ∧ a.icf.age ≤ 2 ∧ 200 ≤ a.icf.value.natAbs then
        t.meas.flexValid = true
          ∧ t.meas.rflex =
            if s.meas.flexValid then s.meas.rflex + (r - s.meas.rflex).tdiv 4 else r
      else t.meas.flexValid = s.meas.flexValid ∧ t.meas.rflex = s.meas.rflex)
  ∧ (∀ (c : Instr) (s t : State), c ≠ .powerOnReset → exec c s = .next t → s.meas.flexValid = true →
      t.meas.flexValid = true)

/-! ### Charge counters -/

/-- A set that takes no seed and meets no empty mark is integrated where the cell's current is usable, and
is a gap where it is not. So is one that leaves a POWER-ON seed waiting, with VC unusable (log 47).
The model's own part in it: log 47. -/
def Obligations.CounterIntegratesASet : Prop :=
  ∀ (s : State) (c : Cell) (m : MeasSet) (rest : List MeasSet),
    s.handed.counterSet.get c = m :: rest → ¬ SeedMet (s.counter.get c) m c → ¬ EmptyMarkMet s m c →
    ∃ t r, exec (.counterSetSteps c) s = .next t ∧ CounterTook s c rest r t
      ∧ r.cap = (s.counter.get c).cap ∧ r.seed = (s.counter.get c).seed
      ∧ r.note = (s.counter.get c).note ∧
      let old := s.counter.get c
      if m.currentOk c = true then
        let total := old.residue + m.current c * m.dt
        let whole := total.tdiv 3600
        r.lastWhole = whole ∧ r.q = clamp 0 (old.cap * 1000) (old.q + whole)
          ∧ r.residue = (if r.q = old.q + whole then total - whole * 3600 else 0)
          ∧ (old.learning = .idle → r.learning = .idle ∧ r.a = old.a)
          ∧ (old.learning = .tracking →
              let top := 2 * s.factory.dcap c * 1000
              r.a = clamp 0 top (old.a + whole)
                ∧ r.learning = if r.a = top then .idle else .tracking)
      else
        r.lastWhole = 0 ∧ r.q = old.q ∧ r.residue = old.residue ∧ r.a = old.a ∧ r.learning = .idle

/-- A set that meets the pending seed's condition gives a seed from the OCV table: the table in force where
it rises, the default one where it does not. A set that meets the empty-mark condition sets Q and the
residue to 0 and starts a learning cycle; one that takes no seed too is counted first, and its whole
increment is the latest. -/
def Obligations.SeedsAndEmptyMarksSetTheCharge : Prop :=
  (∀ (s : State) (c : Cell) (m : MeasSet) (rest : List MeasSet),
      s.handed.counterSet.get c = m :: rest → SeedMet (s.counter.get c) m c → s.tables.ocv.length = 11 →
      ∃ t r sv, exec (.counterSetSteps c) s = .next t ∧ CounterTook s c rest r t
        ∧ r.cap = (s.counter.get c).cap ∧ r.seed = .none ∧ r.lastWhole = 0
        ∧ (¬ EmptyMarkMet s m c →
            r.q = sv * r.cap ∧ r.residue = 0 ∧ r.learning = .idle ∧ r.a = (s.counter.get c).a) ∧
        let own := ∀ i, i < 10 → s.tables.ocv.getD i 0 < s.tables.ocv.getD (i + 1) 0
        ∃ table : List Int, (own → table = s.tables.ocv)
          ∧ (¬ own → table = [3300, 3560, 3640, 3700, 3750, 3800, 3870, 3950, 4050, 4170, 4300])
          ∧ (∃ d, r.note = some ⟨m.vc c, sv, d⟩ ∧ (d = true ↔ ¬ own))
          ∧ (m.vc c ≤ table.getD 0 0 → sv = 0) ∧ (table.getD 10 0 ≤ m.vc c → sv = 1000)
          ∧ ∀ i, i < 10 → table.getD i 0 ≤ m.vc c → m.vc c < table.getD (i + 1) 0 →
              sv = 100 * i
                + (100 * (m.vc c - table.getD i 0)).fdiv (table.getD (i + 1) 0 - table.getD i 0))
  ∧ (∀ (s : State) (c : Cell) (m : MeasSet) (rest : List MeasSet),
      s.handed.counterSet.get c = m :: rest → EmptyMarkMet s m c →
      ∃ t r, exec (.counterSetSteps c) s = .next t ∧ CounterTook s c rest r t
        ∧ r.cap = (s.counter.get c).cap ∧ r.q = 0 ∧ r.residue = 0 ∧ r.learning = .tracking ∧ r.a = 0
        ∧ (¬ SeedMet (s.counter.get c) m c →
            r.lastWhole = ((s.counter.get c).residue + m.current c * m.dt).tdiv 3600
              ∧ r.seed = (s.counter.get c).seed ∧ r.note = (s.counter.get c).note))

/-- FULL_MARK: under TRACKING the learned value is accepted within the CAP range and a LEARN notice is
queued; the cell is then full.
The model's own part in it: log 2. -/
def Obligations.FullMarkLearnsAndFills : Prop :=
  ∀ (s : State) (c : Cell) (n : Nat), s.handed.fullMark.get c = n + 1 →
    let old := s.counter.get c
    let learned := old.a.fdiv 1000
    let fits := (s.factory.dcap c * 800).tdiv 1000 ≤ learned
      ∧ learned ≤ (s.factory.dcap c * 1100).tdiv 1000
    let cap := if old.learning = .tracking ∧ fits then learned else old.cap
    exec (.fullMark c) s = .next { s with
      counter := s.counter.set c { old with cap := cap, q := cap * 1000, residue := 0, learning := .idle }
      handed := { s.handed with fullMark := s.handed.fullMark.set c n }
      link :=
        if old.learning = .tracking then
          s.link.notify s.alloc.frame.number (.learn c (decide fits) learned cap)
        else s.link }

/-! ### Sequencers -/

/-- SEQUENCER_SET_HANDLING takes the oldest set that waits and changes nothing but the sequencer's record,
the VC it works from, its notice and a full mark; the band temperature, the band and the BAND reason are
those of R60 to R62. A set that changes several of state, stage and band queues one notice, as the worked
charge sequence has it ("Each row that changes state, stage or band queues a CHARGE-F notice", log 9).
The model's own part in it: log 9, 41. -/
def Obligations.SetHandlingDeterminesTheBand : Prop :=
  ∀ (s : State) (c : Cell) (m : MeasSet) (rest : List MeasSet),
    s.handed.seqSet.get c = m :: rest → (s.seq.get c).band ≤ 6 →
    ∃ t r, exec (.sequencerSetHandling c) s = .next t
      ∧ SeqTook (s.sawSet c m) c r
          { s.handed with seqSet := s.handed.seqSet.set c rest, fullMark := t.handed.fullMark } t ∧
      let bands := s.bandsOf c
      let old := (s.seq.get c).band
      r.bandT = bandTemperature s c m
        ∧ (r.bandT = none → r.band = 0)
        ∧ (∀ temp, r.bandT = some temp →
            if old ≠ 0 ∧ Widened bands temp old then r.band = old else PlainBand bands temp r.band)
        ∧ (r.reasons.band = true ↔ r.band = 0 ∨ Bands.pct bands r.band = 0)
        ∧ r.reasons.inhibit = (s.seq.get c).reasons.inhibit
        ∧ r.reasons.fault = (s.seq.get c).reasons.fault ∧ r.ceiling = (s.seq.get c).ceiling

/-- A set with VC unusable or below 1500 mV takes the cell to ABSENT from any state; in ABSENT a set with
VC at 2000 mV or above returns it, and any other leaves it there; no other set enters ABSENT. The record
notes whether coupling acts. An entry other than to TAPER keeps the last grant noted (log 40).
The model's own part in it: log 31, 40, 41. -/
def Obligations.PresenceIsTestedOnASet : Prop :=
  ∀ (s : State) (c : Cell) (m : MeasSet) (rest : List MeasSet),
    s.handed.seqSet.get c = m :: rest →
    ∃ t, exec (.sequencerSetHandling c) s = .next t ∧
      (m.vcOk c = false ∨ m.vc c < 1500 → Cleared (t.seq.get c) .absent)
        ∧ ((s.seq.get c).state ≠ .absent → m.vcOk c = true → 1500 ≤ m.vc c →
            (t.seq.get c).state ≠ .absent)
        ∧ ((t.seq.get c).coupled = true ↔
            s.hinge.position = .closed ∧ s.hinge.settled = true ∧ m.tempOk c = true)
        ∧ ((s.seq.get c).state = .absent → m.vcOk c = true → 1500 ≤ m.vc c → m.vc c < 2000 →
            (t.seq.get c).state = .absent)
        ∧ ((s.seq.get c).state = .absent → m.vcOk c = true → 2000 ≤ m.vc c →
            (s.input.state ≠ .active → Cleared (t.seq.get c) .idle)
              ∧ (s.input.state = .active →
                  entryOutcome ((s.sawSet c m).seen.get c) (s.alloc.frame.grant.get c)
                    (s.afterBand c m) 0 0 (t.seq.get c)))

/-- The safety timer of a charging state advances by Δt, or by half of it in a derated band; at its limit
the cell expires, with the timer at the limit and the other timer kept. SAFETY_TIMER_EXPIRY is that
handling of the set (log 16).
The model's own part in it: log 16, 41. -/
def Obligations.SafetyTimerExpiresAtItsLimit : Prop :=
  ∀ (s : State) (c : Cell) (m : MeasSet) (rest : List MeasSet),
    s.handed.seqSet.get c = m :: rest → m.vcOk c = true → 1500 ≤ m.vc c →
    (s.afterBand c m).reasons.any = false →
    let old := s.seq.get c
    let add := timeAdded (s.bandsOf c) (s.afterBand c m).band m.dt
    let preLimit := (s.prof c).getD 16 0 * 60000
    let fastLimit := (s.prof c).getD 17 0 * 60000
    ∃ t, exec (.sequencerSetHandling c) s = .next t ∧
      let new := t.seq.get c
      (old.state = .precharge →
          if preLimit ≤ old.pre + add then
            exec (.safetyTimerExpiry c) s = .next t ∧ new.state = .expired ∧ new.pre = preLimit
              ∧ new.fast = old.fast ∧ new.k = 0 ∧ new.adv = 0 ∧ new.term = 0 ∧ new.demand = 0
          else new.state ≠ .expired
            ∧ (new.state ≠ .full → new.pre = old.pre + add ∧ new.fast = old.fast))
        ∧ (old.state = .fast ∨ old.state = .taper →
            if fastLimit ≤ old.fast + add then
              exec (.safetyTimerExpiry c) s = .next t ∧ new.state = .expired ∧ new.fast = fastLimit
                ∧ new.pre = old.pre ∧ new.k = 0 ∧ new.adv = 0 ∧ new.term = 0 ∧ new.demand = 0
            else new.state ≠ .expired
              ∧ (new.state ≠ .full → new.fast = old.fast + add ∧ new.pre = old.pre))

/-- Steps 3 and 5 of a set in which the cell is present. Step 3: BAND arising pauses a charging state, and
the last reason to go resumes PAUSED. Step 5: the ceiling stops a charge; PRECHARGE leaves at VPRE + 100 by
the voltage placement; two sets in a row at the stage's end voltage move the stage on; the taper law gives
D, and the third set in a row that meets the termination test gives FULL(TAPER); FULL re-enters when its
recharge test holds. IDLE and EXPIRED keep everything but the band and its reason. A full mark is sent in
the taper's termination and in no other case. On entry to TAPER and where the taper law is applied the last
grant noted is the cell's grant; every other set, each of FAST's that stays in FAST among them, keeps it
(log 40).
The model's own part in it: log 21, 31, 40, 41. -/
def Obligations.StageAdvanceAndTaperTermination : Prop :=
  ∀ (s : State) (c : Cell) (m : MeasSet) (rest : List MeasSet),
    s.handed.seqSet.get c = m :: rest →
    let old := s.seq.get c
    let step1 := s.afterBand c m
    let p := s.prof c
    let bands := s.bandsOf c
    let n := (p.getD 5 0).toNat
    let vfull := p.getD 0 0 - Bands.voff bands step1.band
    let stage (k : Nat) : Int :=
      downTo 25 ((p.getD (5 + k) 0 * Bands.pct bands step1.band).fdiv 100)
    let grant := s.alloc.frame.grant.get c
    let add := timeAdded bands step1.band m.dt
    let present := m.vcOk c = true ∧ 1500 ≤ m.vc c
    let inTime := (old.state = .precharge → old.pre + add < p.getD 16 0 * 60000)
      ∧ (old.state = .fast ∨ old.state = .taper → old.fast + add < p.getD 17 0 * 60000)
    let goesOn := present ∧ step1.reasons.any = false ∧ inTime
    let stopped := old.ceiling < 1000 ∧ old.ceiling ≤ s.soc c
    let adj : Int := if vfull + 10 < m.vc c then -100 else if m.vc c < vfull - 20 then 50 else 0
    let d := downTo 25 (clamp 0 (stage n) (grant + adj))
    let ends := d ≤ p.getD 1 0 ∧ vfull - 50 ≤ m.vc c
    let recharges := (old.full = .taper ∧ m.vc c < vfull - p.getD 4 0)
      ∨ (old.full = .ceiling ∧ (s.soc c < old.ceiling - 20 ∨ old.ceiling = 1000))
    let enters (pre fast : Int) (r : SeqRecord) : Prop :=
      entryOutcome ((s.sawSet c m).seen.get c) grant step1 pre fast r
    ∃ t, exec (.sequencerSetHandling c) s = .next t ∧
      let new := t.seq.get c
      t.handed.fullMark =
          (if old.state = .taper ∧ goesOn ∧ ¬ stopped ∧ ends ∧ 2 ≤ old.term then
            s.handed.fullMark.set c (s.handed.fullMark.get c + 1)
          else s.handed.fullMark)
        ∧ new.lastGrant =
          (if new.state = .taper ∨ (old.state = .taper ∧ goesOn ∧ ¬ stopped) then grant
          else old.lastGrant)
        ∧ (present →
          (old.state.charging = true → step1.reasons.any = true → new = { step1 with
              state := .paused, k := 0, full := .none, adv := 0, term := 0, demand := 0 })
            ∧ (old.state = .paused → step1.reasons.any = true → new = { step1 with demand := 0 })
            ∧ (old.state = .paused → old.reasons.any = true → step1.reasons.any = false →
                enters old.pre old.fast new)
            ∧ (old.state = .full →
                if recharges then enters 0 0 new else new = { step1 with demand := 0 })
            ∧ (old.state = .idle ∨ old.state = .expired → new = { step1 with demand := 0 }))
        ∧ (goesOn → old.state.charging = true → stopped → new = { step1 with
            state := .full, full := .ceiling, k := 0, adv := 0, term := 0, pre := 0, fast := 0
            demand := 0 })
        ∧ (goesOn → ¬ stopped →
          (old.state = .precharge →
              if p.getD 2 0 + 100 ≤ m.vc c then enters (old.pre + add) old.fast new
              else new = { step1 with pre := old.pre + add, demand := downTo 25 (p.getD 3 0) })
            ∧ (old.state = .fast →
                if min (p.getD (10 + old.k) 0) vfull ≤ m.vc c then
                  if old.adv = 0 then
                    new.state = .fast ∧ new.k = old.k ∧ new.adv = 1 ∧ new.demand = stage old.k
                  else if old.k < n then
                    new.state = .fast ∧ new.k = old.k + 1 ∧ new.adv = 0 ∧ new.demand = stage (old.k + 1)
                  else
                    new.state = .taper ∧ new.k = 0 ∧ new.adv = 0 ∧ new.term = 0
                      ∧ new.demand = downTo 25 (min grant (stage n)) ∧ new.lastGrant = grant
                else new.state = .fast ∧ new.k = old.k ∧ new.adv = 0 ∧ new.demand = stage old.k)
            ∧ (old.state = .taper →
                new.lastGrant = grant ∧
                if ends then
                  if old.term < 2 then
                    new.state = .taper ∧ new.term = old.term + 1 ∧ new.demand = d
                  else
                    new.state = .full ∧ new.full = .taper ∧ new.demand = 0
                      ∧ new.pre = 0 ∧ new.fast = 0 ∧ new.adv = 0 ∧ new.term = 0
                else new.state = .taper ∧ new.term = 0 ∧ new.demand = d))

/-- SEQ_INPUT_GRANTED: a cell in IDLE takes an entry evaluation with its timers reset, against the active
tables and with the VC that the set handled last left; any other state stays. SEQ_INPUT_WITHDRAWN: every
state except ABSENT becomes IDLE, with the timers, the counters and D at 0. A change of state and stage
together queues one notice (log 9).
The model's own part in it: log 2, 9, 21, 40, 41. -/
def Obligations.InputSignalsStartAndStopACharge : Prop :=
  (∀ (s : State) (c : Cell) (rest : List InputSignal),
      s.handed.seqSignal.get c = .granted :: rest →
      ∃ t r, exec (.seqInputGranted c) s = .next t
        ∧ SeqTook (s.holdsStage c r) c r { s.handed with seqSignal := s.handed.seqSignal.set c rest } t
        ∧ ((s.seq.get c).state ≠ .idle → r = s.seq.get c)
        ∧ ((s.seq.get c).state = .idle →
            entryOutcome (s.inForceHeld c) (s.alloc.frame.grant.get c)
              (s.seq.get c) 0 0 r
              ∧ (r.state = .absent ∨ r.state = .paused ∨ r.state = .precharge ∨ r.state = .fast
                  ∨ r.state = .taper)))
  ∧ (∀ (s : State) (c : Cell) (rest : List InputSignal),
      s.handed.seqSignal.get c = .withdrawn :: rest →
      ∃ t r, exec (.seqInputWithdrawn c) s = .next t
        ∧ SeqTook s c r { s.handed with seqSignal := s.handed.seqSignal.set c rest } t
        ∧ r.reasons = (s.seq.get c).reasons ∧ r.band = (s.seq.get c).band
        ∧ r.ceiling = (s.seq.get c).ceiling
        ∧ ((s.seq.get c).state = .absent → r = s.seq.get c)
        ∧ ((s.seq.get c).state ≠ .absent → Cleared r .idle))

/-- SEQ_INHIBIT_EVENT and SEQ_FAULT_REASON_UPDATE bring a pause reason up to date: a reason pauses a
charging state with its timers kept, the last one to go resumes PAUSED by an entry evaluation without
timer reset, against the active tables and with the VC of the channel record, and no other state changes.
A change of state and stage together queues one notice (log 9).
The model's own part in it: log 2, 9, 21, 23, 40, 41. -/
def Obligations.PauseReasonsPauseAndResume : Prop :=
  ∀ (s : State) (c : Cell), ∀ reasons : PauseReasons, ∀ h : Handed, ∀ i : Instr,
    (∃ b rest, s.handed.seqInhibit.get c = b :: rest ∧ i = .seqInhibitEvent c
        ∧ reasons = { (s.seq.get c).reasons with inhibit := b }
        ∧ h = { s.handed with seqInhibit := s.handed.seqInhibit.set c rest })
      ∨ (∃ x rest, s.handed.seqFault.get c = x :: rest ∧ i = .seqFaultReasonUpdate c
        ∧ reasons = { (s.seq.get c).reasons with fault := decide (x = .blockCharge ∨ x = .blockAll) }
        ∧ h = { s.handed with seqFault := s.handed.seqFault.set c rest }) →
    ∃ t r, exec i s = .next t ∧ SeqTook (s.holdsStage c r) c r h t ∧ r.reasons = reasons ∧
      let old := { s.seq.get c with reasons := reasons }
      if old.state.charging = true ∧ reasons.any = true then
        r = { old with state := .paused, k := 0, full := .none, adv := 0, term := 0, demand := 0 }
      else if old.state = .paused ∧ (s.seq.get c).reasons.any = true ∧ reasons.any = false then
        entryOutcome (s.inForce c) (s.alloc.frame.grant.get c) old old.pre old.fast r
      else r = old

/-- SEQ_PROMOTION acts against the active copies, with the VC of the set handled last, and makes the promoted
copy the one that sets are handled against.
EXPIRED keeps its state with its timers lowered to the new limits; a charging cell with VC unusable goes to
ABSENT, whose timers are 0, whatever they stood at; any other charging cell and a PAUSED cell whose elapsed
time stands at or above a new limit expires; below them a charging cell re-enters, and a PAUSED cell resumes
when BANDS takes its last reason away and stays otherwise; IDLE, ABSENT and FULL keep their state; a promotion
of BANDS brings the BAND reason up to date. A change of state and stage together queues one notice (log 9).
The model's own part in it: log 9, 21, 34, 40, 41. -/
def Obligations.PromotionReachesTheSequencer : Prop :=
  ∀ (s : State) (c : Cell) (which : Promoted) (rest : List Promoted),
    s.handed.seqPromotion.get c = which :: rest →
    let u := s.sawPromotion c which
    ∃ t r, exec (.seqPromotion c) s = .next t
      ∧ SeqTook (u.holdsStage c r) c r { s.handed with seqPromotion := s.handed.seqPromotion.set c rest } t ∧
      let old := s.seq.get c
      let v := s.inForceHeld c
      let preLimit := v.prof.getD 16 0 * 60000
      let fastLimit := v.prof.getD 17 0 * 60000
      let bars := old.band = 0 ∨ Bands.pct v.bands old.band = 0
      let told := { old with reasons := r.reasons }
      r.band = old.band ∧ r.ceiling = old.ceiling
        ∧ (∀ w, which = .profile w → r.reasons = old.reasons)
        ∧ (∀ w, which = .bands w → r.reasons = { old.reasons with band := decide bars })
        ∧ (old.state = .idle ∨ old.state = .absent ∨ old.state = .full → r = told)
        ∧ (old.state = .expired →
            r = { told with pre := min old.pre preLimit, fast := min old.fast fastLimit })
        ∧ ((old.state = .paused ∨ old.state.charging = true ∧ v.age ≤ 2) →
            preLimit ≤ old.pre ∨ fastLimit ≤ old.fast →
            r.state = .expired ∧ r.pre = min old.pre preLimit ∧ r.fast = min old.fast fastLimit
              ∧ r.k = 0 ∧ r.adv = 0 ∧ r.term = 0 ∧ r.demand = 0)
        ∧ (old.state.charging = true → 2 < v.age → 0 < preLimit → 0 < fastLimit →
            Cleared r .absent ∧ r.lastGrant = old.lastGrant)
        ∧ (old.pre < preLimit → old.fast < fastLimit →
            (old.state.charging = true → v.age ≤ 2 →
                entryOutcome v (s.alloc.frame.grant.get c) told old.pre old.fast r)
              ∧ (old.state = .paused →
                if old.reasons.any = true ∧ r.reasons.any = false then
                  entryOutcome v (s.alloc.frame.grant.get c) told old.pre old.fast r
                else r = told))

/-! ### Protection -/

/-- PROTECTION_SET_REACTION moves every condition by the set; a condition that becomes active latches,
counts, records the frame and queues FAULT, every in-force flag follows its class, and the changes are
handed on once for each receiver.
The model's own part in it: log 2, 23. -/
def Obligations.SetReactionMovesEveryCondition : Prop :=
  ∀ (s : State) (m : MeasSet) (rest : List MeasSet), s.handed.protSet = m :: rest →
    (∀ k ∈ FaultKind.all, FaultOk s.tables.protect k (s.prot.record.get k)) →
    ∃ t, exec .protectionSetReaction s = .next t
      ∧ t = { s with prot := t.prot, link := t.link, handed := t.handed }
      ∧ t.prot.retry = s.prot.retry
      ∧ (∀ k ∈ FaultKind.all,
          let old := s.prot.record.get k
          let new := t.prot.record.get k
          let rose := old.active = false ∧ new.active = true
          new.active = conditionAfter s.tables.protect m old.active k
            ∧ (new.latched = true ↔ old.latched = true ∨ rose)
            ∧ new.count = (if rose then min 255 (old.count + 1) else old.count)
            ∧ new.lastFrame = (if rose then s.alloc.frame.number else old.lastFrame)
            ∧ new.inForce =
              (match Protect.classOf s.tables.protect k.num with
                | 1 => new.active
                | 2 => new.latched
                | _ => false))
      ∧ t.link = (FaultKind.all.filter fun k =>
            !(s.prot.record.get k).active && (t.prot.record.get k).active).foldl
          (fun l k => l.notify s.alloc.frame.number (.fault (1#16 <<< k.num))) s.link
      ∧ t.handed = { s.handed with
          protSet := rest
          pathBlocks := ⟨s.handed.pathBlocks.near ++
              (if ∃ k ∈ pathKinds .near,
                  (s.prot.record.get k).inForce ≠ (t.prot.record.get k).inForce then
                [blocksOn t.prot.record .near] else []),
            s.handed.pathBlocks.far ++
              (if ∃ k ∈ pathKinds .far,
                  (s.prot.record.get k).inForce ≠ (t.prot.record.get k).inForce then
                [blocksOn t.prot.record .far] else [])⟩
          die := s.handed.die ++
            (if s.prot.record.dieOt.inForce ≠ t.prot.record.dieOt.inForce then
              [t.prot.record.dieOt.inForce] else [])
          transfer := s.handed.transfer ++
            (if s.prot.record.sysUv.active = false ∧ t.prot.record.sysUv.active = true then
              [.sysUv] else []) }

/-- OVERCURRENT_TRIP on an armed path that is not OPEN, with a current above ITRIP, disarms the path,
counts an occurrence, queues FAULT and starts the retry timer; with the condition active it is a repeat
occurrence. Otherwise no trip is issued. TRIP_REARM arms the path once the current is at ITRIP or below.
RETRY_TIMER_EXPIRY, when the timer has run out, stops it and makes the overcurrent condition inactive; under
RESUME the BLOCK-ALL lifts, under LATCH it stays, and the latch, the count and the last frame are kept. With
time left, as after a trip taken first, the expiry does not take place. A set transition hands the path its
blocks where the in-force flag changes, and nothing where it does not.
The model's own part in it: log 2, 3, 23. -/
def Obligations.TripsRearmsAndRetries : Prop :=
  (∀ (s : State) (c : Cell) (current : Int),
      let k : FaultKind := match c with
        | .near => .nOc
        | .far => .fOc
      let above := (s.factory.itrip c) < current.natAbs
      let p := s.path.get c
      (p.armed = true → p.eff ≠ .openPath → above →
        ∃ t, exec (.overcurrentTrip c current) s = .next t
          ∧ t.path = s.path.set c { p with armed := false }
          ∧ t = { s with path := t.path, prot := t.prot, link := t.link, handed := t.handed }
          ∧ t.link = s.link.notify s.alloc.frame.number (.fault (1#16 <<< k.num))
          ∧ t.prot.retry = s.prot.retry.set c (some (10 * (s.tables.protect.getD 3 0).toNat))
          ∧ (∀ j, j ≠ k → t.prot.record.get j = s.prot.record.get j) ∧
          let old := s.prot.record.get k
          let new := t.prot.record.get k
          new.active = true ∧ new.count = min 255 (old.count + 1)
            ∧ new.lastFrame = s.alloc.frame.number
            ∧ (old.active = true → new.latched = old.latched ∧ new.inForce = old.inForce
                ∧ t.handed = s.handed)
            ∧ (old.active = false → new.latched = true
                ∧ (Protect.classOf s.tables.protect k.num = 1
                      ∨ Protect.classOf s.tables.protect k.num = 2 → new.inForce = true)
                ∧ t.handed = { s.handed with
                    pathBlocks :=
                      if new.inForce = old.inForce then s.handed.pathBlocks
                      else s.handed.pathBlocks.set c
                        (s.handed.pathBlocks.get c ++ [blocksOn t.prot.record c]) }))
      ∧ (p.armed = false ∨ p.eff = .openPath ∨ ¬ above →
          exec (.overcurrentTrip c current) s = .next s)
      ∧ (¬ above → exec (.tripRearm c current) s
          = .next { s with path := s.path.set c { p with armed := true } })
      ∧ (above → exec (.tripRearm c current) s = .next s))
  ∧ (∀ (s : State) (c : Cell), s.prot.retry.get c ≠ some 0 → exec (.retryTimerExpiry c) s = .next s)
  ∧ (∀ (s : State) (c : Cell), s.prot.retry.get c = some 0 →
      let k : FaultKind := match c with
        | .near => .nOc
        | .far => .fOc
      let old := s.prot.record.get k
      let stays := match Protect.classOf s.tables.protect k.num with
        | 2 => old.latched
        | _ => false
      ∃ t, exec (.retryTimerExpiry c) s = .next t
        ∧ t = { s with prot := t.prot, handed := t.handed }
        ∧ t.prot.retry = s.prot.retry.set c none
        ∧ t.prot.record.get k = { old with active := false, inForce := stays }
        ∧ (∀ j, j ≠ k → t.prot.record.get j = s.prot.record.get j)
        ∧ t.handed = { s.handed with
            pathBlocks :=
              if stays = old.inForce then s.handed.pathBlocks
              else s.handed.pathBlocks.set c (s.handed.pathBlocks.get c ++ [blocksOn t.prot.record c]) })

/-- FAULT-CLEAR clears the latch of each named kind whose condition is inactive, reports the others, keeps
counts and last frames, hands the lifts on as one change per path and one of DIE, and refuses a mask outside
0..12.
The model's own part in it: log 2, 8, 23. -/
def Obligations.FaultClearClearsInactiveLatches : Prop :=
  ∀ (s : State) (tag : Byte) (mask : Word), s.phase = .running →
    (mask &&& 0xE000 ≠ 0 →
      exec (.faultClear tag mask) s
        = .next (Answer.reply ⟨s, .badArg, s.faultClearBody 0⟩ 0x14 tag))
    ∧ (mask &&& 0xE000 = 0 →
      ∃ (u : State) (kept : Word), exec (.faultClear tag mask) s
          = .next (Answer.reply ⟨u, if kept = 0 then .ok else .part, u.faultClearBody kept⟩ 0x14 tag)
        ∧ kept &&& 0xE000 = 0
        ∧ u = { s with prot := u.prot, handed := u.handed } ∧ u.prot.retry = s.prot.retry
        ∧ FaultsHanded s u
        ∧ (∀ k ∈ FaultKind.all,
            let old := s.prot.record.get k
            let new := u.prot.record.get k
            let named := mask.getLsbD k.num
            (kept.getLsbD k.num = true ↔ named = true ∧ old.active = true)
              ∧ if named = true ∧ old.active = false then
                  new = { old with latched := false
                                   inForce := judge (Protect.classOf s.tables.protect k.num) false false }
                else new = old))

/-! ### Allocator -/

/-- A frame on a set with VBUS, VSYS or ILOAD unusable is a HOLD frame: no grants, no limit, both orders
DIODE, the cooldown counts down, and a transfer in progress ends with cause STALE and its notice.
The model's own part in it: log 14, 22. -/
def Obligations.HoldFrameOrdersDiode : Prop :=
  ∀ (s : State) (m : MeasSet) (rest : List MeasSet), s.handed.allocSet = m :: rest →
    2 < m.age.vbus ∨ 2 < m.age.vsys ∨ 2 < m.age.iload →
    ∃ t, exec .allocationFrame s = .next t
      ∧ t = { s with alloc := t.alloc, link := t.link, handed := t.handed }
      ∧ t.handed = { s.handed with
          allocSet := rest
          pathOrder := ⟨s.handed.pathOrder.near ++ [.diode], s.handed.pathOrder.far ++ [.diode]⟩ }
      ∧ t.alloc.frame =
          { number := if s.alloc.frame.number < 65535 then s.alloc.frame.number + 1 else 0
            mode := .hold, ilim := s.input.ilim, sd := s.input.sd
            vbus := m.value.vbus, vsys := m.value.vsys, iload := m.value.iload
            soc := ⟨s.soc .near, s.soc .far⟩, demand := ⟨s.seq.near.demand, s.seq.far.demand⟩
            capOut := 0, headroom := 0, capped := ⟨0, 0⟩, wN := 500, grant := ⟨0, 0⟩, limit := none
            order := ⟨.diode, .diode⟩, transferActive := false }
      ∧ t.alloc.enable = s.alloc.enable
      ∧ (s.alloc.transfer.active = true →
          t.alloc.transfer = { s.alloc.transfer with
            active := false, lastEnd := .stale, cooldown := (s.tables.balance.getD 8 0).toNat }
            ∧ t.link = s.link.notify t.alloc.frame.number
                (.transfer .stale s.alloc.transfer.donor s.alloc.transfer.receiver
                  s.alloc.transfer.moved s.alloc.transfer.frames))
      ∧ (s.alloc.transfer.active = false →
          t.alloc.transfer = { s.alloc.transfer with cooldown := s.alloc.transfer.cooldown - 1 }
            ∧ t.link = s.link)

/-- A frame that passes the HOLD test records what it read, its capacity, headroom and grants; takes the
transfer step, which starts a transfer, counts its frames or ends it with its cause and notice; shares the
discharge in SUPPLEMENT and BATTERY; and orders by its mode: CHARGE, IDLE-SUPPLY and SUPPLEMENT with the
input ACTIVE, TRANSFER and BATTERY without.
The model's own part in it: log 14, 22. -/
def Obligations.FrameGrantsAndOrdersByMode : Prop :=
  ∀ (s : State) (m : MeasSet) (rest : List MeasSet), s.handed.allocSet = m :: rest →
    m.age.vbus ≤ 2 → m.age.vsys ≤ 2 → m.age.iload ≤ 2 →
    ∃ t, exec .allocationFrame s = .next t
      ∧ t = { s with alloc := t.alloc, link := t.link, handed := t.handed }
      ∧ t.handed = { s.handed with
          allocSet := rest
          pathOrder := ⟨s.handed.pathOrder.near ++ [t.alloc.frame.order.near],
            s.handed.pathOrder.far ++ [t.alloc.frame.order.far]⟩ }
      ∧ t.alloc.enable = s.alloc.enable ∧
      let f := t.alloc.frame
      let active := s.input.state = .active
      let margin := s.tables.limits.getD 4 0
      f.number = (if s.alloc.frame.number < 65535 then s.alloc.frame.number + 1 else 0)
        ∧ f.soc = ⟨s.soc .near, s.soc .far⟩ ∧ f.demand = ⟨s.seq.near.demand, s.seq.far.demand⟩
        ∧ f.ilim = s.input.ilim ∧ f.sd = s.input.sd ∧ f.vbus = m.value.vbus
        ∧ f.vsys = m.value.vsys ∧ f.iload = m.value.iload
        ∧ (active →
            f.capOut = ((s.input.ilim * m.value.vbus * s.tables.limits.getD 3 0).fdiv
                (max 3000 m.value.vsys * 1000) * s.input.sd).fdiv 1000
              ∧ f.headroom = f.capOut - m.value.iload - margin)
        ∧ (¬ active → f.capOut = 0 ∧ f.headroom = -m.value.iload)
        ∧ f.wN = clamp 0 1000
            (500 + ((s.soc .far - s.soc .near) * s.tables.balance.getD 0 0).tdiv 4)
        ∧ f.capped.near = (if s.path.near.restriction = .blockCharge ∨ s.path.near.restriction = .blockAll
            then 0 else s.seq.near.demand)
        ∧ f.capped.far = (if s.path.far.restriction = .blockCharge ∨ s.path.far.restriction = .blockAll
            then 0
            else
              let held := if s.hinge.settled then s.seq.far.demand
                else min s.seq.far.demand (s.tables.limits.getD 7 0)
              if m.flexValid = true ∧ s.tables.limits.getD 9 0 < m.rflex then
                min held (s.tables.limits.getD 10 0)
              else held)
        ∧ (let h := f.headroom
          let nearFirst := min f.capped.near ((h * f.wN).fdiv 1000)
          let far := min f.capped.far (h - nearFirst)
          let near := min f.capped.near (h - far)
          f.grant =
            if h ≤ 0 then ⟨0, 0⟩
            else if f.capped.near + f.capped.far ≤ h then
              ⟨f.capped.near.fdiv 25 * 25, f.capped.far.fdiv 25 * 25⟩
            else ⟨near.fdiv 25 * 25, far.fdiv 25 * 25⟩)
        ∧ f.transferActive = t.alloc.transfer.active
        ∧ (active → t.alloc.transfer.active = s.alloc.transfer.active)
        ∧ f.mode = (if active then
              if 0 < f.headroom ∧ f.grant ≠ ⟨0, 0⟩ then .charge
              else if 0 ≤ f.headroom then .idleSupply else .supplement
            else if f.transferActive then .transfer else .battery)
        ∧ (f.mode = .charge →
            f.order = f.grant.map fun g => if g = 0 then .diode else .regulate g)
        ∧ (f.mode = .idleSupply → f.order = ⟨.diode, .diode⟩)
        ∧ (f.mode = .transfer → ∀ c,
            f.order.get c =
              if t.alloc.transfer.receiver = some c then .regulate t.alloc.transfer.current
              else .diode)
        ∧ TransferStepped s m f.number t
        ∧ (let limited := limitedCell s (-f.headroom) (s.soc .far - s.soc .near)
          f.limit = (if f.mode = .supplement ∨ f.mode = .battery then
              limited.bind fun p => p.2.map fun l => (p.1, l) else none)
            ∧ (f.mode = .supplement → ∀ c, f.order.get c = sharedOrder limited (fun _ => .diode) c)
            ∧ (f.mode = .battery → ∀ c, f.order.get c =
                sharedOrder limited (fun d => if Closes s m d then .closed else .diode) c))

/-- The grants of every split keep within the headroom and within the capped demands, and are multiples of
25 mA. A headroom that does not cover the demands is split in proportion to the near share; what the near cell
leaves goes to the far one, and what the far cell cannot use goes back. -/
def Obligations.GrantsStayWithinTheHeadroom : Prop :=
  ∀ h w dN dF : Int, 0 ≤ w → w ≤ 1000 → 0 ≤ dN → 0 ≤ dF →
    let g := grants h w dN dF
    g.near + g.far ≤ max h 0 ∧ 0 ≤ g.near ∧ g.near ≤ dN ∧ 0 ≤ g.far ∧ g.far ≤ dF
      ∧ g.near % 25 = 0 ∧ g.far % 25 = 0 ∧ (h ≤ 0 → g = ⟨0, 0⟩)
      ∧ (0 < h → dN + dF ≤ h → g = ⟨dN.fdiv 25 * 25, dF.fdiv 25 * 25⟩)
      ∧ (0 < h → h < dN + dF → ∀ nearFirst far near : Int,
          nearFirst = min dN ((h * w).fdiv 1000) → far = min dF (h - nearFirst) → near = min dN (h - far) →
          g = ⟨near.fdiv 25 * 25, far.fdiv 25 * 25⟩)

/-- TRANSFER_EVENT_END: an event that waits ends the transfer in progress with its cause; an inhibit does so
on the receiver alone; with no transfer in progress it does nothing to the transfer. A withdrawal makes both
grants of the record 0, and the hinge becoming unsettled caps the far one. The allocator takes a grant and a
withdrawal of the input in the order of their issue: neither is taken before one that waits ahead of it, and
a grant is taken with no effect where no transfer is in progress.
The model's own part in it: log 2, 42. -/
def Obligations.EventsBetweenFramesEndTransfersAndCutGrants : Prop :=
  (∀ (s : State) (e : TransferEvent) (h : Handed),
      (e ≠ .inputGranted ∧ e ∈ s.handed.transfer
          ∧ h = { s.handed with transfer := s.handed.transfer.erase e }
        ∨ e = .inputGranted ∧ ∃ rest, s.handed.allocSignal = .granted :: rest
          ∧ h = { s.handed with allocSignal := rest }) →
      let u := { s with handed := h }
      let cause : Option EndCause := match e with
        | .inputGranted => some .input
        | .hingeUnsettled => some .hinge
        | .restriction _ => some .fault
        | .inhibit c => if s.alloc.transfer.receiver = some c then some .inhibit else none
        | .sysUv => some .sys
      ∃ t, exec (.transferEventEnd e) s = .next t
        ∧ (s.alloc.transfer.active = false → t = u) ∧ (cause = none → t = u)
        ∧ ∀ x, cause = some x → s.alloc.transfer.active = true → TransferEnded u x t)
  ∧ (∀ (s : State) (rest : List InputSignal),
      (∀ n, s.handed.allocSignal = List.replicate n .granted ++ .withdrawn :: rest →
        n = 0 ∨ s.alloc.transfer.active = false →
        exec .grantsClearedOnWithdrawal s = .next { s with
            alloc := { s.alloc with frame := { s.alloc.frame with grant := ⟨0, 0⟩ } }
            handed := { s.handed with allocSignal := rest } })
      ∧ (s.handed.allocSignal = .withdrawn :: rest → exec (.transferEventEnd .inputGranted) s = .next s)
      ∧ (s.handed.allocSignal = .granted :: rest → s.alloc.transfer.active = true →
          exec .grantsClearedOnWithdrawal s = .next s))
  ∧ (∀ (s : State) (n : Nat), s.handed.grantHinge = n + 1 → exec .farGrantHingeCap s = .next { s with
      alloc := { s.alloc with frame := { s.alloc.frame with
        grant := ⟨s.alloc.frame.grant.near,
          (min s.alloc.frame.grant.far (s.tables.limits.getD 7 0)).fdiv 25 * 25⟩ } }
      handed := { s.handed with grantHinge := n } })

/-! ### Cell paths -/

/-- PATH_ORDER_DELIVERY and RAMP_TIMER_EXPIRY: a different order replaces the one held and the path is
recomputed; the same order leaves the record, but the far path under a LIMIT or REGULATE is recomputed while
the hinge is settled, so that a capped target ends (the model's reading, log 43); a ramp whose timer has run
out closes the path, and with time left it goes on. PATH_RESTRICTION_CHANGE: the blocks in force are
combined; a restriction that changes recomputes the path and is handed to the sequencer, and from NONE to
the transfer operation.
The model's own part in it: log 2, 3, 23, 43. -/
def Obligations.PathTakesOrdersRampsAndRestrictions : Prop :=
  let uncaps (c : Cell) (o : Order) (s : State) : Prop :=
    c = .far ∧ s.hinge.settled = true ∧ ∃ x, o = .limit x ∨ o = .regulate x
  ((∀ (s : State) (c : Cell) (o : Order) (rest : List Order), s.handed.pathOrder.get c = o :: rest →
      let h := { s.handed with pathOrder := s.handed.pathOrder.set c rest }
      ∃ t, exec (.pathOrderDelivery c) s = .next t
        ∧ ((s.path.get c).ordered = o → ¬ uncaps c o s → t = { s with handed := h })
        ∧ ((s.path.get c).ordered ≠ o ∨ uncaps c o s →
            PathTook s c o (s.path.get c).restriction h t))
    ∧ (∀ (s : State) (c : Cell),
        ((s.path.get c).eff = .ramp → (s.path.get c).ramp = some 0 →
          exec (.rampTimerExpiry c) s
            = .next { s with path := s.path.set c { s.path.get c with eff := .closed, ramp := none } })
        ∧ ((s.path.get c).ramp ≠ some 0 → exec (.rampTimerExpiry c) s = .next s)))
  ∧ (∀ (s : State) (c : Cell) (b : Blocks) (rest : List Blocks), s.handed.pathBlocks.get c = b :: rest →
      let new : Restriction :=
        if b.all ∨ b.charge ∧ b.discharge then .blockAll
        else if b.charge then .blockCharge else if b.discharge then .blockDischarge else .none
      let old := (s.path.get c).restriction
      let h := { s.handed with pathBlocks := s.handed.pathBlocks.set c rest }
      ∃ t, exec (.pathRestrictionChange c) s = .next t
        ∧ (new = old → t = { s with handed := h })
        ∧ (new ≠ old →
            PathTook s c (s.path.get c).ordered new
              { h with
                seqFault := h.seqFault.set c (h.seqFault.get c ++ [new])
                transfer := h.transfer ++ if old = .none then [.restriction c] else [] } t))

/-- PATH_INPUT_GRANTED, PATH_INPUT_WITHDRAWN and PATH_HINGE_UNSETTLED: an ordered CLOSED becomes DIODE on a
grant, an ordered REGULATE on a withdrawal, and on the far path the hinge event demotes CLOSED and caps
REGULATE and LIMIT; the path is then recomputed.
The model's own part in it: log 2. -/
def Obligations.ImmediateEventsDemoteOrders : Prop :=
  (∀ (s : State) (c : Cell) (rest : List InputSignal), s.handed.pathSignal.get c = .granted :: rest →
    ∃ t, exec (.pathInputGranted c) s = .next t
      ∧ PathTook s c (if (s.path.get c).ordered = .closed then .diode else (s.path.get c).ordered)
          (s.path.get c).restriction
          { s.handed with pathSignal := s.handed.pathSignal.set c rest } t)
  ∧ (∀ (s : State) (c : Cell) (rest : List InputSignal),
    s.handed.pathSignal.get c = .withdrawn :: rest →
    ∃ t, exec (.pathInputWithdrawn c) s = .next t
      ∧ PathTook s c
          (match (s.path.get c).ordered with
            | .regulate _ => .diode
            | o => o)
          (s.path.get c).restriction
          { s.handed with pathSignal := s.handed.pathSignal.set c rest } t)
  ∧ (∀ (s : State) (n : Nat), s.handed.pathHinge = n + 1 →
    let cap (x : Int) : Int := (min x (s.tables.limits.getD 7 0)).fdiv 25 * 25
    ∃ t, exec .pathHingeUnsettled s = .next t
      ∧ PathTook s .far
          (match s.path.far.ordered with
            | .closed => .diode
            | .regulate x => if cap x = 0 then .diode else .regulate (cap x)
            | .limit x => if cap x = 0 then .diode else .limit (cap x)
            | o => o)
          s.path.far.restriction { s.handed with pathHinge := n } t)

/-! ### Input stage -/

/-- COMPARATOR_RAW_CHANGE: the raw outputs follow the connector voltage with their hysteresis, and a filter
timer runs while a raw output differs from its filtered level. ATTACH_FILTER_EXPIRY: the filtered level
takes the raw output and the state follows the table of edges, with the notice and the signals of a change
of state; with time left on the filter timer it does not take place. Before the completion of the power-on
load the filters do not run, and the raw outputs alone follow the voltage.
The model's own part in it: log 2, 3, 17. -/
def Obligations.ConnectorEdgesMoveTheInputStage : Prop :=
  (∀ (s : State) (vbus : Int),
      let present := if 4300 ≤ vbus then true else if vbus < 3900 then false else s.input.present.raw
      let ov := if 14000 < vbus then true else if vbus < 13500 then false else s.input.ov.raw
      let filter (f : Filtered) (raw : Bool) : Filtered :=
        if raw = f.raw then f
        else ⟨raw, f.level, if raw = f.level then none else some s.factory.attachFilter⟩
      (s.phase = .running → exec (.comparatorRawChange vbus) s = .next { s with
        input := { s.input with
          present := filter s.input.present present, ov := filter s.input.ov ov } })
      ∧ (s.phase ≠ .running → exec (.comparatorRawChange vbus) s = .next { s with
        input := { s.input with
          present := { s.input.present with raw := present }
          ov := { s.input.ov with raw := ov } } }))
  ∧ (∀ (s : State) (k : Comparator),
      let f := match k with
        | .present => s.input.present
        | .ov => s.input.ov
      (f.timer ≠ some 0 → exec (.attachFilterExpiry k) s = .next s) ∧ (f.timer = some 0 →
      let g : Filtered := ⟨f.raw, f.raw, none⟩
      let u := { s with input := match k with
        | .present => { s.input with present := g }
        | .ov => { s.input with ov := g } }
      let new := edgeTable u.input.present.level u.input.ov.level k s.input.state
      ∃ t, exec (.attachFilterExpiry k) s = .next t
        ∧ (new = s.input.state → t = u) ∧ (new ≠ s.input.state → InputMoved u new t)))

/-- QUALIFICATION_EXPIRY gives ACTIVE, or SUSPENDED where a suspend reason is present; with time left on the
timer it does not take place.
DIE_SUSPEND_REASON_CHANGE, INPUT-SUSPEND SUSPEND and INPUT-SUSPEND RESUME change the suspend reasons, and
the state follows: a reason suspends an ACTIVE input, and the last one to go makes a SUSPENDED input
ACTIVE.
The model's own part in it: log 2, 3, 23. -/
def Obligations.QualificationAndReasonsMoveTheInput : Prop :=
  (∀ s : State, s.input.qual ≠ some 0 → exec .qualificationExpiry s = .next s)
  ∧ (∀ s : State, s.input.state = .qualifying → s.input.qual = some 0 →
      ∃ t, exec .qualificationExpiry s = .next t
        ∧ InputMoved s (if s.input.reasons.host ∨ s.input.reasons.die then .suspended else .active) t)
  ∧ ((∀ (s : State) (d : Bool) (rest : List Bool), s.handed.die = d :: rest →
      ∃ t, exec .dieSuspendReasonChange s = .next t
        ∧ ReasonsTook { s with handed := { s.handed with die := rest } }
            { s.input.reasons with die := d } t)
    ∧ (∀ (s : State) (tag : Byte), s.phase = .running →
      (∃ u, exec (.inputSuspendSuspend tag) s = .next (Answer.reply ⟨u, .ok, u.inputBody⟩ 0x11 tag)
        ∧ ReasonsTook s { s.input.reasons with host := true } u)
      ∧ (∃ u, exec (.inputSuspendResume tag) s = .next (Answer.reply ⟨u, .ok, u.inputBody⟩ 0x11 tag)
        ∧ ReasonsTook s { s.input.reasons with host := false } u)))

/-- INPUT_SAG_DERATE_STEP: in ACTIVE with VBUS usable, SD falls by 100 below VFLOOR, holds within 200 mV
above it and climbs by 50 beyond, within 100..1000; otherwise it keeps its value. INPUT-LIMIT: an argument
of 0 leaves its setting, any other is rounded down to its step and clamped to its range, with CLAMPED when
that changes it. The input switch holds the input current to the new ILIM at once; in every state but ACTIVE it
is off. What the switch conducts is stated by kind (log 28).
The model's own part in it: log 2, 28. -/
def Obligations.SagDerateAndInputLimitSetTheInput : Prop :=
  (∀ (s : State) (m : MeasSet) (rest : List MeasSet), s.handed.inputSet = m :: rest →
      exec .inputSagDerateStep s = .next { s with
        handed := { s.handed with inputSet := rest }
        input := { s.input with
          sd :=
            if s.input.state = .active ∧ m.age.vbus ≤ 2 then
              if m.value.vbus < s.input.vfloor then max 100 (s.input.sd - 100)
              else if m.value.vbus < s.input.vfloor + 200 then s.input.sd
              else min 1000 (s.input.sd + 50)
            else s.input.sd } })
  ∧ (∀ (s : State) (tag : Byte) (ilim vfloor : Word), s.phase = .running →
      let i : Int := if ilim = 0 then s.input.ilim else clamp 100 3000 ((ilim.toNat : Int).fdiv 25 * 25)
      let v : Int :=
        if vfloor = 0 then s.input.vfloor else clamp 4200 12000 ((vfloor.toNat : Int).fdiv 50 * 50)
      let u := { s with input := { s.input with ilim := i, vfloor := v } }
      exec (.inputLimit tag ilim vfloor) s = .next (Answer.reply
        ⟨u, if ilim ≠ 0 ∧ i ≠ ilim.toNat ∨ vfloor ≠ 0 ∧ v ≠ vfloor.toNat then .clamped else .ok,
          u.inputBody⟩ 0x10 tag)
        ∧ u.inputSwitch = if s.input.state = .active then .held i else .blocked)
  ∧ (∀ s : State, s.inputSwitch = if s.input.state = .active then .held s.input.ilim else .blocked)

/-! ### Hinge monitor -/

/-- FOLD_RAW_CHANGE starts or stops the input's filter; during the start-up sample it restarts the start-up
timer; before the completion of the power-on load the raw level alone changes. HINGE_FILTER_EXPIRY and
STARTUP_SAMPLE_EXPIRY record the levels and take the position from them: OPEN or CLOSED starts the settle
timer, MOVING or CONFLICT stops it and clears settled, a conflict is counted; a hinge that becomes unsettled
is handed on. SETTLE_TIMER_EXPIRY makes the hinge settled. An expiry with time left on its timer does not
take place.
The model's own part in it: log 2, 3. -/
def Obligations.HingeFollowsTheFoldInputs : Prop :=
  (∀ (s : State) (f : FoldSense) (level : Bool),
      let old := match f with
        | .foldA => s.hinge.foldA
        | .foldB => s.hinge.foldB
      let put (x : Filtered) (startup : Option Nat) : State := { s with hinge := match f with
        | .foldA => { s.hinge with foldA := x, startup := startup }
        | .foldB => { s.hinge with foldB := x, startup := startup } }
      let time := 10 * s.factory.hingeFilter
      (level = old.raw → exec (.foldRawChange f level) s = .next s)
        ∧ (level ≠ old.raw → s.phase ≠ .running →
            exec (.foldRawChange f level) s
              = .next (put ⟨level, old.level, old.timer⟩ s.hinge.startup))
        ∧ (level ≠ old.raw → s.phase = .running → s.hinge.startup.isSome →
            exec (.foldRawChange f level) s = .next (put ⟨level, old.level, old.timer⟩ (some time)))
        ∧ (level ≠ old.raw → s.phase = .running → s.hinge.startup = none →
            exec (.foldRawChange f level) s
              = .next (put ⟨level, old.level, if level = old.level then none else some time⟩ none)))
  ∧ (let after (s : State) (a b : Filtered) (startup : Option Nat) : Hinge :=
      let time := 10 * (s.tables.limits.getD 8 0).toNat
      let stop : Bool := a.level != b.level
      { foldA := a, foldB := b, startup := startup
        settled := stop && time == 0
        settle := if stop = true ∧ time ≠ 0 then some time else none
        conflicts := if a.level = true ∧ b.level = true then min 255 (s.hinge.conflicts + 1)
          else s.hinge.conflicts }
    let position (h : Hinge) : Position :=
      if h.foldA.level then if h.foldB.level then .conflict else .closed
      else if h.foldB.level then .opened else .moving
    let notice (h : Hinge) : Payload :=
      .hinge (position h) h.settled h.foldA.level h.foldB.level h.conflicts
    (∀ (s : State) (f : FoldSense), s.hinge.conflicts ≤ 255 →
      (match f with
        | .foldA => s.hinge.foldA
        | .foldB => s.hinge.foldB).timer = some 0 →
      let h := match f with
        | .foldA => after s ⟨s.hinge.foldA.raw, s.hinge.foldA.raw, none⟩ s.hinge.foldB s.hinge.startup
        | .foldB => after s s.hinge.foldA ⟨s.hinge.foldB.raw, s.hinge.foldB.raw, none⟩ s.hinge.startup
      exec (.hingeFilterExpiry f) s = .next { s with
        hinge := h
        link := s.link.notify s.alloc.frame.number (notice h)
        handed :=
          if s.hinge.settled = true ∧ h.settled = false then { s.handed with
            pathHinge := s.handed.pathHinge + 1
            grantHinge := s.handed.grantHinge + 1
            transfer := s.handed.transfer ++ [.hingeUnsettled] }
          else s.handed })
    ∧ (∀ s : State,
      ((s.hinge.foldA.timer ≠ some 0 → exec (.hingeFilterExpiry .foldA) s = .next s)
        ∧ (s.hinge.foldB.timer ≠ some 0 → exec (.hingeFilterExpiry .foldB) s = .next s))
        ∧ (s.hinge.startup ≠ some 0 → exec .startupSampleExpiry s = .next s)
        ∧ (s.hinge.settle ≠ some 0 → exec .settleTimerExpiry s = .next s))
    ∧ (∀ s : State, s.hinge.conflicts ≤ 255 → s.hinge.startup = some 0 →
      exec .startupSampleExpiry s = .next { s with
        hinge := after s ⟨s.hinge.foldA.raw, s.hinge.foldA.raw, none⟩
          ⟨s.hinge.foldB.raw, s.hinge.foldB.raw, none⟩ none })
    ∧ (∀ s : State, s.hinge.settle = some 0 →
      let h := { s.hinge with settled := true, settle := none }
      exec .settleTimerExpiry s = .next { s with
        hinge := h, link := s.link.notify s.alloc.frame.number (notice h) }))

/-! ### Requests on the cells, the transfer and the inhibit sets -/

/-- CHARGE-RESTART is refused for a target with a cell in IDLE or ABSENT; otherwise each cell of the target
resets its timers and takes an entry evaluation, against the active tables and with the VC of the channel
record, and each whose state or stage changes queues its CHARGE notice, one for both changes (log 9), the near
cell's first (log 46).
The model's own part in it: log 8, 9, 21, 40, 41, 46. -/
def Obligations.ChargeRestartReentersTheTarget : Prop :=
  ∀ (s : State) (tag target : Byte), s.phase = .running →
    let inTarget (c : Cell) : Prop := target = 2 ∨ target = cellCode c
    let barred (c : Cell) : Prop :=
      inTarget c ∧ ((s.seq.get c).state = .idle ∨ (s.seq.get c).state = .absent)
    (2 < target.toNat → exec (.chargeRestart tag target) s
        = .next (Answer.reply ⟨s, .badArg, s.restartBody⟩ 0x15 tag))
    ∧ (target.toNat ≤ 2 → barred .near ∨ barred .far → exec (.chargeRestart tag target) s
        = .next (Answer.reply ⟨s, .refused, s.restartBody⟩ 0x15 tag))
    ∧ (target.toNat ≤ 2 → ¬ barred .near → ¬ barred .far →
        ∃ u, exec (.chargeRestart tag target) s
            = .next (Answer.reply ⟨u, .ok, u.restartBody⟩ 0x15 tag)
          ∧ u = { s with seq := u.seq, seen := u.seen, link := u.link }
          ∧ u.link = s.noticed .far u.seq.far (s.noticed .near u.seq.near s.link)
          ∧ ∀ c, (inTarget c →
                entryOutcome (s.inForce c) (s.alloc.frame.grant.get c)
                    (s.seq.get c) 0 0 (u.seq.get c)
                  ∧ u.seen.get c = (s.holdsStage c (u.seq.get c)).seen.get c)
              ∧ (¬ inTarget c → u.seq.get c = s.seq.get c ∧ u.seen.get c = s.seen.get c))

/-- CEILING clamps its value to 500..1000 and sets the ceiling of each targeted cell; a change takes the
ceiling test at once, and a cell that it stops queues its CHARGE notice, one where state and stage both change
(log 9), the near cell's first (log 46). GAUGE-SEED makes a seed pending of NONE into REQUESTED in each
targeted cell, and changes nothing else.
The model's own part in it: log 8, 9, 35, 46. -/
def Obligations.CeilingAndSeedRequestsActOnTheTarget : Prop :=
  (∀ (s : State) (tag target : Byte) (value : Word), s.phase = .running →
      let inTarget (c : Cell) : Prop := target = 2 ∨ target = cellCode c
      let v : Int := clamp 500 1000 value.toNat
      (2 < target.toNat → exec (.ceiling tag target value) s
          = .next (Answer.reply ⟨s, .badArg, s.ceilingBody⟩ 0x12 tag))
      ∧ (target.toNat ≤ 2 →
          ∃ u, exec (.ceiling tag target value) s
              = .next (Answer.reply
                ⟨u, if v = value.toNat then .ok else .clamped, u.ceilingBody⟩ 0x12 tag)
            ∧ u = { s with seq := u.seq, link := u.link }
            ∧ u.link = s.noticed .far u.seq.far (s.noticed .near u.seq.near s.link)
            ∧ ∀ c,
              let old := s.seq.get c
              (¬ inTarget c → u.seq.get c = old)
                ∧ (inTarget c →
                  u.seq.get c =
                    if old.ceiling ≠ v ∧ old.state.charging = true ∧ v < 1000 ∧ v ≤ s.soc c then
                      { old with
                        ceiling := v, state := .full, full := .ceiling, k := 0, adv := 0, term := 0
                        pre := 0, fast := 0, demand := 0 }
                    else { old with ceiling := v })))
  ∧ (∀ (s : State) (tag target : Byte), s.phase = .running →
      let inTarget (c : Cell) : Prop := target = 2 ∨ target = cellCode c
      (2 < target.toNat → exec (.gaugeSeed tag target) s
          = .next (Answer.reply ⟨s, .badArg, s.seedBody⟩ 0x16 tag))
      ∧ (target.toNat ≤ 2 →
          ∃ u, exec (.gaugeSeed tag target) s = .next (Answer.reply ⟨u, .ok, u.seedBody⟩ 0x16 tag)
            ∧ u = { s with counter := u.counter }
            ∧ ∀ c, u.counter.get c =
              if inTarget c ∧ (s.counter.get c).seed = .none then
                { s.counter.get c with seed := .requested }
              else s.counter.get c))

/-- BALANCE: READ changes nothing, ENABLE and DISABLE set the host transfer enable, DISABLE and CANCEL end a
transfer in progress with cause HOST, and CANCEL without one is answered ABORT. An end makes the receiver's
order in the frame record DIODE (log 42).
The model's own part in it: log 20, 37, 42. -/
def Obligations.BalanceSetsTheEnableAndEndsTransfers : Prop :=
  ∀ (s : State) (tag func : Byte), s.phase = .running →
    let enabled (v : Bool) : State := { s with alloc := { s.alloc with enable := v } }
    exec (.balanceRead tag func) s
        = .next (Answer.reply ⟨s, if func = 0 then .ok else .badArg, s.balanceBody⟩ 0x17 tag)
    ∧ exec (.balanceEnable tag) s
        = .next (Answer.reply ⟨enabled true, .ok, (enabled true).balanceBody⟩ 0x17 tag)
    ∧ (∃ u, exec (.balanceDisable tag) s = .next (Answer.reply ⟨u, .ok, u.balanceBody⟩ 0x17 tag)
        ∧ (s.alloc.transfer.active = false → u = enabled false)
        ∧ (s.alloc.transfer.active = true → TransferEnded (enabled false) .host u))
    ∧ (∃ u, exec (.balanceCancel tag) s
          = .next (Answer.reply
            ⟨u, if s.alloc.transfer.active then .ok else .abort, u.balanceBody⟩ 0x17 tag)
        ∧ (s.alloc.transfer.active = false → u = s)
        ∧ (s.alloc.transfer.active = true → TransferEnded s .host u))

/-- The INHIBIT functions: SELECT and EMPTY-SELECT place the mask in every set of the target when their test
passes, SET and CLEAR place and remove it without a test, TEST changes nothing; each change is handed to the
cell's sequencer, and from an empty set to the transfer operation.
The model's own part in it: log 2, 8, 20, 23. -/
def Obligations.InhibitFunctionsActOnTheTarget : Prop :=
  ∀ (s : State) (tag target mask : Byte), s.phase = .running →
    let inTarget (c : Cell) : Prop := target = 2 ∨ target = cellCode c
    let held (c : Cell) (bits : Byte) : Byte := if inTarget c then s.inhibit.get c &&& bits else 0
    let found (bits : Byte) : Byte := held .near bits ||| held .far bits
    let reply (u : State) (st : Status) (blocking : Byte) : Answer := ⟨u, st, u.inhibitBody blocking⟩
    let refused := .next (Answer.reply (reply s .badArg 0) 0x13 tag)
    let changed (f : Byte → Byte) (u : State) : Prop :=
      u = { s with inhibit := u.inhibit, handed := u.handed }
        ∧ (∀ c, u.inhibit.get c = if inTarget c then f (s.inhibit.get c) else s.inhibit.get c)
        ∧ (∀ c, u.handed.seqInhibit.get c = s.handed.seqInhibit.get c ++
            if u.inhibit.get c = s.inhibit.get c then [] else [u.inhibit.get c != 0])
        ∧ u.handed.transfer = s.handed.transfer
            ++ (if s.inhibit.near = 0 ∧ u.inhibit.near ≠ 0 then [.inhibit .near] else [])
            ++ (if s.inhibit.far = 0 ∧ u.inhibit.far ≠ 0 then [.inhibit .far] else [])
        ∧ u.handed = { s.handed with
            seqInhibit := u.handed.seqInhibit, transfer := u.handed.transfer }
    let boot := mask &&& 1 ≠ 0
    let claim (i : Instr) (bits : Byte) : Prop :=
      if 2 < target.toNat ∨ boot then exec i s = refused
      else if found bits = 0 then
        ∃ u, exec i s = .next (Answer.reply (reply u .accept 0) 0x13 tag) ∧ changed (· ||| mask) u
      else exec i s = .next (Answer.reply (reply s .abort (found bits)) 0x13 tag)
    claim (.inhibitSelect tag target mask) mask
      ∧ claim (.inhibitEmptySelect tag target mask) 0xFF
      ∧ (if 2 < target.toNat ∨ boot then exec (.inhibitSet tag target mask) s = refused
          else ∃ u, exec (.inhibitSet tag target mask) s
              = .next (Answer.reply (reply u .accept 0) 0x13 tag) ∧ changed (· ||| mask) u)
      ∧ (if 2 < target.toNat then exec (.inhibitClear tag target mask) s = refused
          else ∃ u, exec (.inhibitClear tag target mask) s
              = .next (Answer.reply (reply u .accept 0) 0x13 tag) ∧ changed (· &&& ~~~mask) u)
      ∧ (if 2 < target.toNat then exec (.inhibitTest tag 3 target mask) s = refused
          else exec (.inhibitTest tag 3 target mask) s = .next (Answer.reply
            (reply s (if found mask = 0 then .accept else .abort) (found mask)) 0x13 tag))
      ∧ (∀ func : Byte, func ≠ 3 → exec (.inhibitTest tag func target mask) s = refused)

/-! ### Tables and the store -/

/-- RECORD_COMPLETION writes the snapshot into the slot in flight, with a check word that passes, and goes on
to the lowest id left; with none left it ends the operation and queues STORE. STORE in IDLE takes a snapshot
of the named tables in force and begins to write the lowest id; in WRITING it is refused with BUSY.
A mask outside 1..8 is BADARG in IDLE, and BUSY or BADARG in WRITING. STORE-CANCEL drops what is still to be
written, or is answered ABORT in IDLE. A reply in IDLE shows free values for what no operation holds.
The model's own part in it: log 6, 8, 12, 45. -/
def Obligations.StoreWritesASnapshot : Prop :=
  (∀ (s : State) (w : Writing), s.store.state = .writing w →
      let id := w.inFlight
      let words := ((w.snapshot.find? fun p => p.1 == id).map (·.2)).getD []
      ∃ t sl, exec .recordCompletion s = .next t ∧ t = { s with store := t.store, link := t.link }
        ∧ sl.id = BitVec.ofNat 16 id.num ∧ sl.count = BitVec.ofNat 16 words.length ∧ sl.words = words
        ∧ sl.id + sl.count + sl.words.foldl (· + ·) 0 + sl.check = 0
        ∧ t.store.defaulted = s.store.defaulted ∧
        let done := w.completed ++ [id]
        match w.cancel, w.todo with
        | false, next :: rest =>
          t.store.state = .writing { w with inFlight := next, todo := rest, completed := done }
            ∧ t.store.slots = (s.store.slots.set id sl).set next (erasedSlot next) ∧ t.link = s.link
        | _, _ =>
          t.store.state = .idle ∧ t.store.slots = s.store.slots.set id sl
            ∧ t.link = s.link.notify s.alloc.frame.number (.store (recordSet done) w.cancel))
  ∧ (∀ (s : State) (tag : Byte) (mask : Word), s.phase = .running →
      let answered (i : Instr) (kind : Byte) (u : State) (st : Status) : Prop :=
        exec i s = .next (Answer.reply ⟨u, st, u.storeBody⟩ kind tag)
      (s.store.state = .idle →
        answered (.storeCancel tag) 0x24 s .abort
          ∧ (mask &&& 0xFE01 ≠ 0 → answered (.store tag mask) 0x22 s .badArg)
          ∧ (mask = 0 → answered (.store tag mask) 0x22 s .ok)
          ∧ (∀ r rest, mask &&& 0xFE01 = 0 → recordsIn mask = r :: rest →
              answered (.store tag mask) 0x22
                { s with store := { s.store with
                  slots := s.store.slots.set r (erasedSlot r)
                  state := .writing ⟨r, rest, [], false,
                    (r :: rest).map fun i => (i, (s.recordWords i).map (BitVec.ofInt 16))⟩ } } .ok))
      ∧ (∀ w, s.store.state = .writing w →
          (mask &&& 0xFE01 = 0 → answered (.store tag mask) 0x22 s .busy)
            ∧ (mask &&& 0xFE01 ≠ 0 →
                answered (.store tag mask) 0x22 s .busy ∨ answered (.store tag mask) 0x22 s .badArg)
            ∧ answered (.storeCancel tag) 0x24
                { s with store := { s.store with
                  state := .writing (if w.cancel then w else { w with cancel := true, todo := [] }) } }
                .ok))

/-- LOAD in IDLE handles its records in ascending id. One record 4..8 whose slot passes is brought into
force with its words adjusted, and a bad one leaves the table and is reported; a profile or band record that
passes is written to the pending copy and promoted when it passes its checks. The reply gives the check
number of each table 1..3 attempted, and 0 for any other. A mask outside 1..8 is BADARG; in WRITING a LOAD
is refused with BUSY, and one whose mask is outside 1..8 with BUSY or BADARG (log 6).
The model's own part in it: log 2, 6, 8, 36, 41. -/
def Obligations.LoadBringsASlotIntoForce : Prop :=
  ∀ (s : State) (tag : Byte) (r : RecordId), s.phase = .running →
    let i : Instr := .load tag (1#16 <<< r.num)
    let sl := s.store.slots.get r
    let set : List Byte := le16 (1#16 <<< r.num)
    let passes (q : RecordId) : Bool := slotPasses q (s.store.slots.get q)
    let brought (q : RecordId) (k : Copies) : Words :=
      k.pending.splice 0 (adjustWords (s.fieldsOf q) 0 (s.store.slots.get q).words)
    let checks (named : List RecordId) : List Byte :=
      [RecordId.profileN, .profileF, .bands].map fun q => match s.copiesOf q with
        | some k =>
          if q ∈ named ∧ passes q = true then BitVec.ofNat 8 (checkOf s.factory q (brought q k)) else 0
        | none => 0
    let refused (mask : Word) (why : Status) : Prop :=
      exec (.load tag mask) s = .next (Answer.reply ⟨s, why, [0, 0, 0, 0, 0, 0, 0]⟩ 0x23 tag)
    (∀ w, s.store.state = .writing w →
      refused (1#16 <<< r.num) .busy
        ∧ ∀ mask : Word, (mask &&& 0xFE01 = 0 → refused mask .busy)
          ∧ (mask &&& 0xFE01 ≠ 0 → refused mask .busy ∨ refused mask .badArg))
    ∧ (s.store.state = .idle → slotPasses r sl = false →
        exec i s = .next (Answer.reply ⟨s, .part, [0, 0] ++ set ++ [0, 0, 0]⟩ 0x23 tag))
    ∧ (s.store.state = .idle → slotPasses r sl = true → 4 ≤ r.num →
        ∃ u, exec i s = .next (Answer.reply ⟨u, .ok, set ++ [0, 0] ++ [0, 0, 0]⟩ 0x23 tag)
          ∧ u = (s.loadRecords [r]).state
          ∧ TableForced s r 0 sl.words.length (s.broughtIn r 0 sl.words).1 u)
    ∧ (s.store.state = .idle → slotPasses r sl = true → ∀ k, s.copiesOf r = some k →
        let pending := brought r k
        let check := checkOf s.factory r pending
        ∃ u, exec i s = .next (Answer.reply ⟨u, .ok, set ++ [0, 0] ++ checks [r]⟩ 0x23 tag)
          ∧ u = (s.loadRecords [r]).state
          ∧ u.copiesOf r = some (if check = 0 then ⟨pending, pending, false⟩
              else ⟨k.active, pending, true⟩)
          ∧ u.link = s.link.notify s.alloc.frame.number
              (.profile r.num (check == 0) check .load)
          ∧ u = { s.setCopies r (if check = 0 then ⟨pending, pending, false⟩
              else ⟨k.active, pending, true⟩) with link := u.link, handed := u.handed }
          ∧ (check = 0 → PromotionHanded s r pending u) ∧ (check ≠ 0 → u.handed = s.handed))
    ∧ (∀ mask : Word, s.store.state = .idle →
        (mask &&& 0xFE01 ≠ 0 → refused mask .badArg)
          ∧ (mask &&& 0xFE01 = 0 →
            let named := recordsIn mask
            exec (.load tag mask) s = .next (Answer.reply
              ⟨named.foldl (fun x q => (x.loadRecords [q]).state) s,
                if named.all passes then .ok else .part,
                le16 (recordSet (named.filter passes))
                  ++ le16 (recordSet (named.filter fun q => !passes q)) ++ checks named⟩ 0x23 tag)))

/-- TABLE-WRITE to a profile or band table: an offset and count beyond the table are refused with RANGE;
otherwise the adjusted words are stored, and a final write promotes the copy when its checks pass and is
REFUSED, with the first failing check, when one fails; every other table stays.
The model's own part in it: log 2, 8, 41. -/
def Obligations.TableWriteStoresAndPromotes : Prop :=
  ∀ (s : State) (tag id offset : Byte) (words : List Word) (r : RecordId) (k : Copies),
    s.phase = .running → s.copiesOf r = some k → id = BitVec.ofNat 8 r.num → words.length ≤ 28 →
    let n := BitVec.ofNat 8 words.length
    let edit (b : Bool) : Byte := if b then 1 else 0
    let adjusted := adjustWords (s.fieldsOf r) offset.toNat words
    let clamped := ((s.fieldsOf r).drop offset.toNat).zip words |>.any fun p =>
      clamp p.1.lo p.1.hi ((p.1.read p.2).fdiv p.1.step * p.1.step) != p.1.read p.2
    let taken : Status := if clamped then .clamped else .ok
    let pending := k.pending.splice offset.toNat adjusted
    let check := checkOf s.factory r pending
    let stored : Copies := if words = [] then k else ⟨k.active, pending, true⟩
    if r.length < offset.toNat + words.length then
      exec (.tableWrite tag id offset 0 words) s
          = .next (Answer.reply ⟨s, .range, [id, offset, n, edit k.editing, 0, 0]⟩ 0x21 tag)
        ∧ exec (.tableWriteFinal tag id offset 1 words) s
          = .next (Answer.reply ⟨s, .range, [id, offset, n, edit k.editing, 0, 0]⟩ 0x21 tag)
    else
      exec (.tableWrite tag id offset 0 words) s
          = .next (Answer.reply ⟨s.setCopies r stored, taken,
              [id, offset, n, edit stored.editing, 0, edit clamped]⟩ 0x21 tag)
        ∧ ∃ u, exec (.tableWriteFinal tag id offset 1 words) s
            = .next (Answer.reply ⟨u, if check = 0 then taken else .refused,
                [id, offset, n, edit (check != 0), BitVec.ofNat 8 check, edit clamped]⟩ 0x21 tag)
          ∧ u.copiesOf r = some (if check = 0 then ⟨stored.pending, stored.pending, false⟩
              else ⟨k.active, stored.pending, true⟩)
          ∧ u.link = s.link.notify s.alloc.frame.number
              (.profile r.num (check == 0) check .write)
          ∧ u = { s.setCopies r (if check = 0 then ⟨stored.pending, stored.pending, false⟩
              else ⟨k.active, stored.pending, true⟩) with link := u.link, handed := u.handed }
          ∧ (check = 0 → PromotionHanded s r stored.pending u) ∧ (check ≠ 0 → u.handed = s.handed)

/-- TABLE-WRITE to a table 4..8 brings its adjusted words into force, with what they do to the counters, the
far path and the fault records, and answers CLAMPED where an adjustment acts; ids 9 and 11..13 are
READ-ONLY, and an id that names no table is BADARG, whatever the flags. TABLE-READ gives the words of a
table, 0 beyond its length with PARTIAL; a count above 28 is BADARG, with a free count byte and no words
(log 7).
The model's own part in it: log 2, 7, 8, 23, 36. -/
def Obligations.TablesAreReadAndWritten : Prop :=
  ∀ (s : State) (tag id offset : Byte) (words : List Word), s.phase = .running →
    (∀ r, 4 ≤ r.num → id = BitVec.ofNat 8 r.num → offset.toNat + words.length ≤ r.length →
      words.length ≤ 28 →
      let clamped : Bool := (s.broughtIn r offset.toNat words).2
      ∃ u : State, exec (.tableWrite tag id offset 0 words) s
          = .next (Answer.reply ⟨u, if clamped then .clamped else .ok,
              [id, offset, BitVec.ofNat 8 words.length, 0, 0, if clamped then 1 else 0]⟩ 0x21 tag)
        ∧ exec (.tableWriteFinal tag id offset 1 words) s
          = exec (.tableWrite tag id offset 0 words) s
        ∧ TableForced s r offset.toNat words.length (s.broughtIn r offset.toNat words).1 u)
    ∧ (∀ r : RecordId, 4 ≤ r.num → id = BitVec.ofNat 8 r.num → r.length < offset.toNat + words.length →
      exec (.tableWrite tag id offset 0 words) s = .next (Answer.reply
        ⟨s, .range, [id, offset, BitVec.ofNat 8 words.length, 0, 0, 0]⟩ 0x21 tag)
        ∧ exec (.tableWriteFinal tag id offset 1 words) s = exec (.tableWrite tag id offset 0 words) s)
    ∧ (∀ (table : TableId) (flags : Byte), tableOf id = some table → flags &&& 0xFE ≠ 0 →
      let refused := Answer.reply
        ⟨s, .badArg, [id, offset, BitVec.ofNat 8 words.length, s.editCode table, 0, 0]⟩ 0x21 tag
      exec (.tableWrite tag id offset flags words) s = .next refused
        ∧ exec (.tableWriteFinal tag id offset flags words) s = .next refused)
    ∧ (id = 9 ∨ id = 11 ∨ id = 12 ∨ id = 13 →
        exec (.tableWrite tag id offset 0 words) s
          = .next (Answer.reply ⟨s, .readOnly, [id, offset, 0, 0, 0, 0]⟩ 0x21 tag)
          ∧ exec (.tableWriteFinal tag id offset 1 words) s = exec (.tableWrite tag id offset 0 words) s)
    ∧ (id = 0 ∨ id = 10 ∨ 13 < id.toNat →
        let refused := Answer.reply ⟨s, .badArg, [id, offset, 0, 0, 0, 0]⟩ 0x21 tag
        (∀ flags, exec (.tableWrite tag id offset flags words) s = .next refused
            ∧ exec (.tableWriteFinal tag id offset flags words) s = .next refused)
          ∧ ∀ count, exec (.tableRead tag id offset count) s
            = .next (Answer.reply ⟨s, .badArg, [id, offset, 0, 0]⟩ 0x20 tag))
    ∧ (∀ (table : TableId) (count : Byte), tableOf id = some table → count.toNat ≤ 28 →
        exec (.tableRead tag id offset count) s = .next (Answer.reply
          ⟨s, if 0 < count.toNat ∧ table.length < offset.toNat + count.toNat then .part else .ok,
            [id, offset, count, s.editCode table]
              ++ ((List.range count.toNat).map fun i =>
                  le16 (BitVec.ofInt 16 ((s.tableWords table).getD (offset.toNat + i) 0))).flatten⟩
          0x20 tag))
    ∧ (∀ (table : TableId) (count : Byte), tableOf id = some table → 28 < count.toNat →
        ∃ n, exec (.tableRead tag id offset count) s = .next (Answer.reply
          ⟨s, .badArg, [id, offset, n, s.editCode table]⟩ 0x20 tag))

/-! ### Message link -/

/-- A request's reply frame is held in place of any other, the supervisor restarts under the HOST_TIMEOUT in
force, and nothing else changes.
The model's own part in it: log 5. -/
def Obligations.ReplyIsHeldAndSupervisorRestarts : Prop :=
  ∀ (a : Answer) (kind tag : Byte),
    let front := [kind, tag, a.status.code, BitVec.ofNat 8 a.body.length] ++ a.body
    let seconds := (a.state.tables.limits.getD 6 0).toNat
    ∃ chk, byteSum (front ++ [chk]) = 0 ∧ a.reply kind tag = { a.state with
      fresh := a.state.fresh + 1
      link := { a.state.link with
        reply := some (front ++ [chk])
        supervisor := if seconds = 0 then none else some (10000 * seconds) } }

/-- The transactions that reach no block: an empty write changes nothing; a bad frame is answered REJECT with
status FRAME and does not restart the supervisor; an unknown kind and a wrong length are answered and do.
Before the completion of the power-on load nothing reaches the link. A read transaction gives the held
reply, or a NONE reply, with 0x00 past its end, and releases it. A transaction to an address other than
LINK_ADDR reaches nothing.
The model's own part in it: log 18, 27. -/
def Obligations.TransactionsThatReachNoBlock : Prop :=
  (∀ s : State,
      exec .emptyWrite s = .next s
      ∧ (∀ bytes, s.phase = .running → exec (.badRequestFrame bytes) s = .next { s with
          fresh := s.fresh + 1
          link := { s.link with
            reply := some [0x7F, bytes.getD 1 0, 0x20, 0, 0 - (0x7F + bytes.getD 1 0 + 0x20)] } })
      ∧ (∀ kind tag body, s.phase = .running →
          exec (.unknownRequest kind tag body) s = .next (Answer.reply ⟨s, .unknown, []⟩ kind tag)
            ∧ exec (.lengthError kind tag body) s = .next (Answer.reply ⟨s, .length, []⟩ kind tag))
      ∧ (∀ (i : Instr) (bytes : List Byte), s.phase ≠ .running → encode i = some bytes →
          exec i s = .next s)
      ∧ (∀ n, s.phase ≠ .running → exec (.readReply n) s = .next s))
  ∧ (∀ (s : State) (n : Nat), s.phase = .running →
      ∃ t, exec (.readReply n) s = .next t
        ∧ t = { s with link := { s.link with reply := none, lastRead := t.link.lastRead } }
        ∧ t.link.lastRead.length = n
        ∧ ∀ i, i < n → t.link.lastRead.getD i 0 = (s.link.reply.getD [0, 0, 0, 0, 0]).getD i 0)
  ∧ (∀ (s : State) (address : BitVec 7) (bytes : List Byte) (n : Nat),
      (address.toNat = s.factory.linkAddr →
        s.hostWrite address bytes = { s with pending := s.pending ++ [decodeWrite bytes] }
          ∧ s.hostRead address n = { s with pending := s.pending ++ [.readReply n] })
      ∧ (address.toNat ≠ s.factory.linkAddr →
        s.hostWrite address bytes = s ∧ s.hostRead address n = s))

/-- A notice of a masked kind is not queued; one of a queued kind merges into its entry, in its place; any
other is added at the end with repeat count 1 and the frame number. -/
def Obligations.NoticesQueueOrMerge : Prop :=
  ∀ (l : Link) (frame : Nat) (p : Payload),
    (l.enabled.getLsbD p.kind = false → l.notify frame p = l)
    ∧ (l.enabled.getLsbD p.kind = true → (∀ e ∈ l.queue, e.payload.kind ≠ p.kind) →
        l.notify frame p = { l with queue := l.queue ++ [⟨p, 1, frame⟩] })
    ∧ (∀ before e after, l.enabled.getLsbD p.kind = true → l.queue = before ++ e :: after →
        (∀ x ∈ before, x.payload.kind ≠ p.kind) → e.payload.kind = p.kind → e.count ≤ 255 →
        ∃ q, l.notify frame p
            = { l with queue := before ++ ⟨q, min 255 (e.count + 1), e.frame⟩ :: after }
          ∧ (∀ a b, e.payload = .fault a → p = .fault b → q = .fault (a ||| b))
          ∧ (∀ a b, e.payload = .defaulted a → p = .defaulted b → q = .defaulted (a ||| b))
          ∧ (p.kind ≠ 5 → p.kind ≠ 10 → q = p))

/-- NOTICE-FETCH removes the oldest entry and gives it; NOTICE-MASK READ changes nothing; NOTICE-MASK WRITE
replaces the enabled set and removes the entries of masked kinds, and a set outside 1..12 is refused.
The model's own part in it: log 8, 19, 20. -/
def Obligations.NoticesAreFetchedAndMasked : Prop :=
  ∀ (s : State) (tag : Byte) (enabled : Word), s.phase = .running →
    (s.link.queue = [] → exec (.noticeFetch tag) s
        = .next (Answer.reply ⟨s, .ok, [0, 0, 0, 0, 0]⟩ 0x30 tag))
    ∧ (∀ e rest, s.link.queue = e :: rest → exec (.noticeFetch tag) s = .next (Answer.reply
        ⟨{ s with link := { s.link with queue := rest } }, .ok,
          [BitVec.ofNat 8 e.payload.kind, BitVec.ofNat 8 e.count]
            ++ le16 (BitVec.ofInt 16 e.frame)
            ++ [BitVec.ofNat 8 rest.length] ++ e.payload.bytes⟩ 0x30 tag))
    ∧ exec (.noticeMaskRead tag 0 enabled) s = .next (Answer.reply ⟨s, .ok, s.maskBody⟩ 0x31 tag)
    ∧ (∀ func, func ≠ 0 → exec (.noticeMaskRead tag func enabled) s
        = .next (Answer.reply ⟨s, .badArg, s.maskBody⟩ 0x31 tag))
    ∧ (enabled &&& 0xE001 ≠ 0 → exec (.noticeMaskWrite tag enabled) s
        = .next (Answer.reply ⟨s, .badArg, s.maskBody⟩ 0x31 tag))
    ∧ (enabled &&& 0xE001 = 0 →
        let u := { s with link := { s.link with
          enabled := enabled
          queue := s.link.queue.filter fun e => enabled.getLsbD e.payload.kind } }
        exec (.noticeMaskWrite tag enabled) s = .next (Answer.reply ⟨u, .ok, u.maskBody⟩ 0x31 tag))

/-- SUPERVISOR_EXPIRY, when the supervisor's time has run out, stops it, queues REVERTED and takes the
revert; with time left, as after a request taken first, no revert follows. SOFT-RESET empties the queue,
enables every kind, queues POWERUP, takes the revert and discards the pending copies. The revert gives ILIM,
VFLOOR, the ceilings, the inhibit sets and the transfer enable their defaults and removes HOST. A return to
ACTIVE queues INPUT and hands a grant to the sequencers, the paths and the allocator; an enable of 0 ends a
transfer in progress with its notice, the receiver's path ordered DIODE; each inhibit set that empties is
told to its sequencer. Which of INPUT and TRANSFER is queued first is open; where INPUT is, the transfer may
end on a grant that waits for the allocator, which is then gone from what waits (log 30); the ILIM of the
INPUT notice is the old or the new one (log 44).
The model's own part in it: log 2, 3, 23, 30, 42, 44. -/
def Obligations.RevertReturnsTheHostSettings : Prop :=
  ∀ s : State,
    let resumes := s.input.state = .suspended ∧ s.input.reasons.host = true ∧ s.input.reasons.die = false
    let r := s.alloc.transfer
    let ends := r.active = true ∧ s.tables.balance.getD 2 0 = 0
    let frame := s.alloc.frame
    let ilim := clamp 100 3000 ((s.tables.limits.getD 0 0).fdiv 25 * 25)
    let issued (l : List InputSignal) : List InputSignal := l ++ if resumes then [.granted] else []
    let told (c : Cell) : List Bool :=
      s.handed.seqInhibit.get c ++ if s.inhibit.get c = 0 then [] else [false]
    let reverted (base : Link) (u : State) : Prop :=
      ∃ (cause : EndCause) (shown : Int),
        let inputTold (l : Link) : Link :=
          if resumes then l.notify frame.number (.input .active .suspended ⟨false, false⟩ shown 1000) else l
        let endTold (l : Link) : Link :=
          if ends then l.notify frame.number (.transfer cause r.donor r.receiver r.moved r.frames) else l
        (shown = s.input.ilim ∨ shown = ilim)
          ∧ (cause = .host
            ∨ cause = .input ∧ resumes ∧ ends ∧ s.handed.allocSignal.head? ≠ some .withdrawn)
          ∧ (u.link = endTold (inputTold base) ∨ cause = .host ∧ u.link = inputTold (endTold base))
          ∧ (¬ ends ∨ r.receiver = none → u.path = s.path)
          ∧ (ends → ∀ c, r.receiver = some c →
              ∃ p, u.path = s.path.set c p ∧ p.ordered = .diode
                ∧ p.restriction = (s.path.get c).restriction ∧ Recomputed s c (s.path.get c) p)
          ∧ u = { s with
              input := { s.input with
                ilim := ilim
                vfloor := clamp 4200 12000 ((s.tables.limits.getD 1 0).fdiv 50 * 50)
                reasons := ⟨false, s.input.reasons.die⟩
                state := if resumes then .active else s.input.state
                sd := if resumes then 1000 else s.input.sd
                qual := if resumes then none else s.input.qual }
              inhibit := ⟨0, 0⟩
              seq := ⟨{ s.seq.near with ceiling := 1000 }, { s.seq.far with ceiling := 1000 }⟩
              alloc :=
                { enable := s.tables.balance.getD 2 0 != 0
                  transfer :=
                    if ends then { r with
                      active := false, lastEnd := cause, cooldown := (s.tables.balance.getD 8 0).toNat }
                    else r
                  frame :=
                    if ends then { frame with
                      transferActive := false
                      order := match r.receiver with
                        | none => frame.order
                        | some c => frame.order.set c .diode }
                    else frame }
              handed := { s.handed with
                seqSignal := s.handed.seqSignal.map issued
                pathSignal := s.handed.pathSignal.map issued
                allocSignal :=
                  if cause = .input then (issued s.handed.allocSignal).tail
                  else issued s.handed.allocSignal
                seqInhibit := ⟨told .near, told .far⟩ }
              path := u.path, tables := u.tables, link := u.link, fresh := u.fresh }
    (s.link.supervisor ≠ some 0 → exec .supervisorExpiry s = .next s)
    ∧ (s.link.supervisor = some 0 →
      ∃ t, exec .supervisorExpiry s = .next t ∧ t.tables = s.tables
        ∧ reverted ({ s.link with supervisor := none }.notify frame.number .reverted) t
        ∧ t.link.supervisor = none ∧ t.link.reply = s.link.reply ∧ t.link.enabled = s.link.enabled
        ∧ (s.link.enabled.getLsbD 11 = true → ∃ e ∈ t.link.queue, e.payload = .reverted))
    ∧ ∀ tag, s.phase = .running →
      ∃ u, exec (.softReset tag) s = .next (Answer.reply ⟨u, .ok, []⟩ 0x3F tag)
        ∧ reverted
          { s.link with queue := [⟨.powerup .softReset, 1, frame.number⟩], enabled := 0x1FFE } u
        ∧ u.link.enabled = 0x1FFE ∧ u.link.supervisor = s.link.supervisor
        ∧ u.link.queue.head? = some ⟨.powerup .softReset, 1, frame.number⟩
        ∧ u.tables = { s.tables with
            profile := ⟨⟨s.tables.profile.near.active, s.tables.profile.near.active, false⟩,
              ⟨s.tables.profile.far.active, s.tables.profile.far.active, false⟩⟩
            bands := ⟨s.tables.bands.active, s.tables.bands.active, false⟩ }

/-- The requests that read change nothing but the link: IDENTIFY, STATUS, MEASURE, CELL, ALLOCATION, FAULTS
and INPUT-SUSPEND READ are taken with OK and report, byte for byte in the order of R212, what stands in the
part; a section, cell or function value outside the named ones is BADARG. A part of a millisecond on a timer
may show as 0 or 1 (log 4), and a field that has no value may show any word (log 5).
The model's own part in it: log 4, 5, 8, 20. -/
def Obligations.ReadRequestsChangeNothing : Prop :=
  ∀ (s : State) (tag : Byte), s.phase = .running →
    let h (x : Int) : List Byte := le16 (BitVec.ofInt 16 x)
    let d (x : Int) : List Byte := le32 (BitVec.ofInt 32 x)
    let b (n : Nat) : Byte := BitVec.ofNat 8 n
    let f (p : Bool) : Byte := if p then 1 else 0
    let left (t : Option Nat) (n : Nat) : Prop :=
      (t = none → n = 0) ∧ ∀ x, t = some x → x / 10 ≤ n ∧ n ≤ (x + 9) / 10
    let holds (x : Option Int) (w : Word) : Prop := ∀ v, x = some v → w = BitVec.ofInt 16 v
    let folds : Byte := b ((if s.hinge.foldA.level then 1 else 0) + (if s.hinge.foldB.level then 2 else 0))
    let kinds (p : FaultRecord → Bool) (w : Word) : Prop :=
      ∀ n, n < 16 → (w.getLsbD n = true ↔ ∃ k ∈ FaultKind.all, k.num = n ∧ p (s.prot.record.get k) = true)
    let shows (i : Instr) (kind : Byte) (body : List Byte) : Prop :=
      exec i s = .next (Answer.reply ⟨s, .ok, body⟩ kind tag)
    let refused (i : Instr) (kind : Byte) (body : List Byte) : Prop :=
      exec i s = .next (Answer.reply ⟨s, .badArg, body⟩ kind tag)
    let input : List Byte :=
      h s.input.ilim ++ h s.input.vfloor ++ h s.input.sd ++ [s.input.state.code, s.input.reasons.code]
    shows (.identify tag) 0x01
        (h s.factory.family ++ [b s.factory.revision, b s.factory.linkAddr] ++ le16 s.store.defaulted)
      ∧ (∃ settle supervisor : Nat, left s.hinge.settle settle ∧ left s.link.supervisor supervisor
          ∧ shows (.status tag) 0x02
            (h s.alloc.frame.number
              ++ [s.alloc.frame.mode.code, s.input.state.code, s.input.reasons.code,
                  s.seq.near.state.code, s.seq.far.state.code]
              ++ h (s.soc .near) ++ h (s.soc .far)
              ++ [s.path.near.restriction.code, s.path.far.restriction.code, folds,
                  s.hinge.position.code, f s.hinge.settled]
              ++ h settle
              ++ [b s.hinge.conflicts, f s.alloc.transfer.active, f (decide (s.store.state ≠ .idle)),
                  b ((if s.tables.profile.near.editing then 1 else 0)
                    + (if s.tables.profile.far.editing then 2 else 0)
                    + (if s.tables.bands.editing then 4 else 0)),
                  b s.link.queue.length]
              ++ d supervisor))
      ∧ (let a := s.meas.chan
        let channels := [a.vbus, a.ibus, a.vsys, a.iload, a.vcn, a.icn, a.vcf, a.icf, a.vfn, a.tn, a.tf,
          a.tdie]
        shows (.measure tag 0) 0x03
            (h s.meas.setDt ++ channels.flatMap (fun r => h r.value ++ [b r.age]) ++ h s.meas.rflex
              ++ [f s.meas.flexValid])
          ∧ shows (.measure tag 1) 0x03 (channels.flatMap fun r => h r.raw))
      ∧ (∀ sect : Byte, 1 < sect.toNat → refused (.measure tag sect) 0x03 [])
      ∧ (∀ c : Cell,
          let cell : Byte := match c with
            | .near => 0
            | .far => 1
          let r := s.counter.get c
          let q := s.seq.get c
          let p := s.path.get c
          let prof := (s.tables.profile.get c).active
          let bands := s.tables.bands.active
          let vfull := prof.getD 0 0 - Bands.voff bands q.band
          let table : Byte := match r.note with
            | none => 0xFF
            | some n => if n.usedDefault then 0 else 1
          (∃ voltage seedS : Word,
              holds (r.note.map (·.voltage)) voltage ∧ holds (r.note.map (·.s)) seedS
                ∧ shows (.cell tag cell 0) 0x04
                  (d r.q ++ h r.residue ++ h (s.soc c) ++ h r.cap
                    ++ h ((s.factory.dcap c * 800).tdiv 1000) ++ h ((s.factory.dcap c * 1100).tdiv 1000)
                    ++ [r.learning.code] ++ d r.a ++ [r.seed.code] ++ le16 voltage ++ le16 seedS
                    ++ [table]
                    ++ h r.lastWhole))
            ∧ shows (.cell tag cell 1) 0x04
              ([q.state.code, b q.k, q.full.code, b q.band, q.reasons.code, b q.adv, b q.term]
                ++ d q.pre ++ d q.fast ++ h q.demand ++ h q.ceiling ++ h vfull
                ++ [1, 2, 3, 4, 5].flatMap (fun i : Nat =>
                    h (if (i : Int) ≤ prof.getD 5 0 then min (prof.getD (10 + i) 0) vfull else 0))
                ++ h (((prof.getD (5 + (prof.getD 5 0).toNat) 0 * Bands.pct bands q.band).fdiv 100).fdiv 25
                    * 25)
                ++ h (q.bandT.getD (-32768)) ++ [f q.coupled] ++ h q.lastGrant)
            ∧ ∃ (value : Word) (ramp : Nat), holds p.ordered.value value ∧ left p.ramp ramp
              ∧ shows (.cell tag cell 2) 0x04
                ([p.ordered.code] ++ le16 value ++ [p.restriction.code, p.eff.code] ++ h p.eff.target
                  ++ [b ramp, f p.armed]))
      ∧ (∀ cell sect : Byte, 1 < cell.toNat ∨ 2 < sect.toNat → refused (.cell tag cell sect) 0x04 [])
      ∧ (∃ limit near far : Word,
          let a := s.alloc.frame
          let t := s.alloc.transfer
          holds (a.limit.map (·.2)) limit ∧ holds a.order.near.value near ∧ holds a.order.far.value far
            ∧ shows (.allocation tag) 0x05
              (h a.number ++ [a.mode.code]
                ++ [a.ilim, a.sd, a.vbus, a.vsys, a.iload, a.soc.near, a.soc.far, a.demand.near,
                    a.demand.far, a.capOut, a.headroom, a.capped.near, a.capped.far, a.wN,
                    a.grant.near, a.grant.far].flatMap h
                ++ le16 limit ++ [cellCodeOr (a.limit.map (·.1)), a.order.near.code] ++ le16 near
                ++ [a.order.far.code] ++ le16 far ++ [f a.transferActive]
                ++ [f t.active, cellCodeOr t.donor, cellCodeOr t.receiver] ++ h t.current ++ d t.moved
                ++ h t.frames ++ [t.lastEnd.code] ++ h t.cooldown ++ [f s.alloc.enable]))
      ∧ (∃ (active latched inForce : Word) (nOc fOc : Nat),
          kinds (·.active) active ∧ kinds (·.latched) latched ∧ kinds (·.inForce) inForce
            ∧ left s.prot.retry.near nOc ∧ left s.prot.retry.far fOc
            ∧ shows (.faults tag 0) 0x06
              (le16 active ++ le16 latched ++ le16 inForce
                ++ FaultKind.all.map (fun k => BitVec.ofInt 8 (s.tables.protect.getD (4 + k.num) 0))
                ++ h nOc ++ h fOc
                ++ [s.path.near.restriction.code, s.path.far.restriction.code, f s.input.reasons.die]))
      ∧ shows (.faults tag 1) 0x06
          (FaultKind.all.map (fun k => b (s.prot.record.get k).count)
            ++ FaultKind.all.flatMap fun k => h (s.prot.record.get k).lastFrame)
      ∧ (∀ sect : Byte, 1 < sect.toNat → refused (.faults tag sect) 0x06 [])
      ∧ shows (.inputSuspendRead tag 0) 0x11 input
      ∧ (∀ func : Byte, func ≠ 0 → refused (.inputSuspendRead tag func) 0x11 input)

/-! ### Encoding -/

/-- The bytes that a well-formed command is sent as spell that command again. -/
def Obligations.DecodeOfEncodeIsTheCommand : Prop :=
  ∀ (i : Instr) (bytes : List Byte), i.wf = true → encode i = some bytes → decodeWrite bytes = i

/-! ### What every step keeps -/

/-- Every predicate that the statements below say every step keeps holds right after reset.
The model's own part in it: log 10, 13, 41. -/
def Obligations.ResetSatisfiesEveryPredicate : Prop :=
  let s := State.reset
  QueueOk s.link ∧ ReplyOk s.link ∧ FactoryOk s.factory ∧ CountersOk s ∧ TablesOk s.factory s.tables
    ∧ Both s.seq SeqOk ∧ Both s.path PathOk ∧ InputOk s.input ∧ HingeOk false s.hinge
    ∧ AttachOk false s.input.present ∧ AttachOk false s.input.ov ∧ FaultsOk s ∧ ActionsReach s
    ∧ ChargesUnderInput s.inputActive s.seq.near s.handed.seqSignal.near
    ∧ ChargesUnderInput s.inputActive s.seq.far s.handed.seqSignal.far
    ∧ OpenUnderInput s.inputActive s.path.near s.handed.pathSignal.near
    ∧ OpenUnderInput s.inputActive s.path.far s.handed.pathSignal.far
    ∧ SeenOk s ∧ FarHeld s ∧ TransferOk s ∧ TransferNamed s.alloc.transfer ∧ StoreOk s.store ∧ SlotsOk s.store
    ∧ ∀ c, ReasonsFollow (s.seq.get c) (s.inhibit.get c) (s.path.get c).restriction
      (s.handed.seqInhibit.get c) (s.handed.seqFault.get c)

/-- Every step keeps the notice queue at one entry for a kind at most, each of an enabled kind. -/
def Obligations.QueueHoldsOneEntryForAKind : Prop :=
  ∀ s t : State, QueueOk s.link → step s = .next t → QueueOk t.link

/-- Every step keeps the held reply a whole reply frame of at most 65 bytes whose sum is 0. -/
def Obligations.HeldReplyIsAWholeFrame : Prop :=
  ∀ s t : State, ReplyOk s.link → step s = .next t → ReplyOk t.link

/-- Every step keeps both charge counters within their bounds. -/
def Obligations.CountersStayWithinTheirBounds : Prop :=
  ∀ s t : State, FactoryOk s.factory → CountersOk s → step s = .next t → CountersOk t

/-- Every step keeps every table in range, every active profile and band table validated, every slot of its
record's length, and a store operation's ids rising, its snapshot whole and its slot in flight erased.
The model's own part in it: log 12. -/
def Obligations.TablesAndStoreStayValid : Prop :=
  ∀ s t : State,
    FactoryOk s.factory ∧ TablesOk s.factory s.tables ∧ StoreOk s.store ∧ SlotsOk s.store →
    step s = .next t →
    FactoryOk t.factory ∧ TablesOk t.factory t.tables ∧ StoreOk t.store ∧ SlotsOk t.store

/-- Every step keeps the fault records tied together, and protection's actions standing at the paths and the
input stage or waiting for them.
The model's own part in it: log 2. -/
def Obligations.FaultActionsReachTheirReceivers : Prop :=
  ∀ s t : State, FaultsOk s → ActionsReach s → step s = .next t → FaultsOk t ∧ ActionsReach t

/-- Every step keeps each path conducting in no direction that its restriction blocks, and no path in CLOSED
or RAMP under an ACTIVE input, but for a grant that waits for it.
The model's own part in it: log 2. -/
def Obligations.RestrictedPathsStayBlocked : Prop :=
  ∀ s t : State,
    Both s.path PathOk ∧ OpenUnderInput s.inputActive s.path.near s.handed.pathSignal.near
      ∧ OpenUnderInput s.inputActive s.path.far s.handed.pathSignal.far → step s = .next t →
    Both t.path PathOk ∧ OpenUnderInput t.inputActive t.path.near t.handed.pathSignal.near
      ∧ OpenUnderInput t.inputActive t.path.far t.handed.pathSignal.far

/-- Every step keeps the hinge monitor consistent, and the far path held to HINGE_CAP while the hinge is not
settled, but for a hinge event that waits for it.
The model's own part in it: log 2, 36. -/
def Obligations.FarPathStaysHeldWhileUnsettled : Prop :=
  ∀ s t : State,
    HingeOk (decide (s.phase = .running)) s.hinge ∧ InFields limitsFields s.tables.limits ∧ FarHeld s →
    step s = .next t →
    HingeOk (decide (t.phase = .running)) t.hinge ∧ InFields limitsFields t.tables.limits ∧ FarHeld t

/-- Every step keeps the input stage consistent: its state agrees with the filtered levels and the suspend
reasons, and ILIM, VFLOOR and SD stay in range.
The model's own part in it: log 17. -/
def Obligations.InputStageStaysConsistent : Prop :=
  ∀ s t : State,
    InputOk s.input ∧ AttachOk (decide (s.phase = .running)) s.input.present
      ∧ AttachOk (decide (s.phase = .running)) s.input.ov → step s = .next t →
    InputOk t.input ∧ AttachOk (decide (t.phase = .running)) t.input.present
      ∧ AttachOk (decide (t.phase = .running)) t.input.ov

/-- Every step keeps each cell charging only with no pause reason and, but for a withdrawal that waits for
its sequencer, only while the input is ACTIVE.
The model's own part in it: log 2. -/
def Obligations.CellsChargeOnlyUnderAnActiveInput : Prop :=
  ∀ s t : State,
    Both s.seq SeqOk ∧ ChargesUnderInput s.inputActive s.seq.near s.handed.seqSignal.near
      ∧ ChargesUnderInput s.inputActive s.seq.far s.handed.seqSignal.far → step s = .next t →
    Both t.seq SeqOk ∧ ChargesUnderInput t.inputActive t.seq.near t.handed.seqSignal.near
      ∧ ChargesUnderInput t.inputActive t.seq.far t.handed.seqSignal.far

/-- Every step keeps a transfer in progress only while the input is not ACTIVE, the hinge is settled and
neither path is restricted, but for an event that waits to end it.
The model's own part in it: log 2. -/
def Obligations.TransfersRunOnlyWhereAllowed : Prop :=
  ∀ s t : State,
    HingeOk (decide (s.phase = .running)) s.hinge ∧ TransferNamed s.alloc.transfer ∧ TransferOk s →
    step s = .next t →
    HingeOk (decide (t.phase = .running)) t.hinge ∧ TransferNamed t.alloc.transfer ∧ TransferOk t

/-- Every step keeps each cell's INHIBIT and FAULT pause reasons in agreement with its inhibit set and its
path's restriction, or with the latest change that waits for its sequencer; and what each sequencer holds,
the profile and BANDS that sets are handled against and VC of the latest set, in agreement with the active
tables and the channel record, or with the latest promotion or set that waits for it.
The model's own part in it: log 2, 41. -/
def Obligations.PauseReasonsFollowTheirSources : Prop :=
  let follow (s : State) : Prop := ∀ c,
    ReasonsFollow (s.seq.get c) (s.inhibit.get c) (s.path.get c).restriction (s.handed.seqInhibit.get c)
      (s.handed.seqFault.get c)
  (∀ s t : State, follow s → step s = .next t → follow t)
    ∧ ∀ s t : State, SeenOk s → step s = .next t → SeenOk t
end

