-- ==== Sys2Proof/Laws/State.lean ====
section
/-! SUPPORT. Laws/State.lean: what each setter of State leaves in each field, and reading back an item of a pair, of the fault kinds and of the stored records. -/

namespace Sys2Proof

namespace PerCell
variable {α β : Type} (p : PerCell α)

@[simp] theorem get_near : p.get .near = p.near := rfl
@[simp] theorem get_far : p.get .far = p.far := rfl
@[simp] theorem set_near (v : α) : p.set .near v = ⟨v, p.far⟩ := rfl
@[simp] theorem set_far (v : α) : p.set .far v = ⟨p.near, v⟩ := rfl

@[simp] theorem get_set_same (c : Cell) (v : α) : (p.set c v).get c = v := by cases c <;> rfl

@[simp] theorem get_set_other (c : Cell) (v : α) : (p.set c v).get c.other = p.get c.other := by
  cases c <;> rfl

theorem get_set (c d : Cell) (v : α) : (p.set c v).get d = if d = c then v else p.get d := by
  cases c <;> cases d <;> rfl

@[simp] theorem set_get (c : Cell) : p.set c (p.get c) = p := by cases c <;> rfl

@[simp] theorem set_set (c : Cell) (v w : α) : (p.set c v).set c w = p.set c w := by cases c <;> rfl

@[simp] theorem get_map (f : α → β) (c : Cell) : (p.map f).get c = f (p.get c) := by cases c <;> rfl

@[simp] theorem get_both (v : α) (c : Cell) : (PerCell.both v).get c = v := by cases c <;> rfl

theorem ext_get {p q : PerCell α} (h : ∀ c, p.get c = q.get c) : p = q := by
  have hn : p.near = q.near := h .near
  have hf : p.far = q.far := h .far
  cases p
  cases q
  simp_all

end PerCell

namespace Machine

namespace PerFault
variable {α : Type} (p : PerFault α)

@[simp] theorem get_ofKind (f : FaultKind → α) (k : FaultKind) : (PerFault.ofKind f).get k = f k := by
  cases k <;> rfl

@[simp] theorem ofKind_get : PerFault.ofKind p.get = p := rfl

theorem get_set (k j : FaultKind) (v : α) : (p.set k v).get j = if j = k then v else p.get j := by
  simp [PerFault.set]

@[simp] theorem get_set_same (k : FaultKind) (v : α) : (p.set k v).get k = v := by simp [get_set]

theorem get_set_ne {k j : FaultKind} (v : α) (h : j ≠ k) : (p.set k v).get j = p.get j := by
  simp [get_set, h]

theorem ext_get {p q : PerFault α} (h : ∀ k, p.get k = q.get k) : p = q := by
  rw [← ofKind_get p, ← ofKind_get q, show p.get = q.get from funext h]

end PerFault

theorem FaultKind.mem_all (k : FaultKind) : k ∈ FaultKind.all := by cases k <;> decide

namespace PerRecord
variable {α : Type} (p : PerRecord α)

theorem get_set (r q : RecordId) (v : α) : (p.set r v).get q = if q = r then v else p.get q := by
  cases r <;> cases q <;> rfl

@[simp] theorem get_set_same (r : RecordId) (v : α) : (p.set r v).get r = v := by cases r <;> rfl

end PerRecord

theorem RecordId.mem_all (r : RecordId) : r ∈ RecordId.all := by cases r <;> decide

namespace State
variable (s : State)


@[simp] theorem setPhase_factory (v : Phase) : (s.setPhase v).factory = s.factory := rfl
@[simp] theorem setPhase_phase (v : Phase) : (s.setPhase v).phase = v := rfl
@[simp] theorem setPhase_meas (v : Phase) : (s.setPhase v).meas = s.meas := rfl
@[simp] theorem setPhase_counter (v : Phase) : (s.setPhase v).counter = s.counter := rfl
@[simp] theorem setPhase_tables (v : Phase) : (s.setPhase v).tables = s.tables := rfl
@[simp] theorem setPhase_seq (v : Phase) : (s.setPhase v).seq = s.seq := rfl
@[simp] theorem setPhase_seen (v : Phase) : (s.setPhase v).seen = s.seen := rfl
@[simp] theorem setPhase_alloc (v : Phase) : (s.setPhase v).alloc = s.alloc := rfl
@[simp] theorem setPhase_path (v : Phase) : (s.setPhase v).path = s.path := rfl
@[simp] theorem setPhase_input (v : Phase) : (s.setPhase v).input = s.input := rfl
@[simp] theorem setPhase_hinge (v : Phase) : (s.setPhase v).hinge = s.hinge := rfl
@[simp] theorem setPhase_prot (v : Phase) : (s.setPhase v).prot = s.prot := rfl
@[simp] theorem setPhase_inhibit (v : Phase) : (s.setPhase v).inhibit = s.inhibit := rfl
@[simp] theorem setPhase_store (v : Phase) : (s.setPhase v).store = s.store := rfl
@[simp] theorem setPhase_link (v : Phase) : (s.setPhase v).link = s.link := rfl
@[simp] theorem setPhase_handed (v : Phase) : (s.setPhase v).handed = s.handed := rfl
@[simp] theorem setPhase_fresh (v : Phase) : (s.setPhase v).fresh = s.fresh := rfl
@[simp] theorem setPhase_pending (v : Phase) : (s.setPhase v).pending = s.pending := rfl

@[simp] theorem setMeas_factory (v : MeasUnit) : (s.setMeas v).factory = s.factory := rfl
@[simp] theorem setMeas_phase (v : MeasUnit) : (s.setMeas v).phase = s.phase := rfl
@[simp] theorem setMeas_meas (v : MeasUnit) : (s.setMeas v).meas = v := rfl
@[simp] theorem setMeas_counter (v : MeasUnit) : (s.setMeas v).counter = s.counter := rfl
@[simp] theorem setMeas_tables (v : MeasUnit) : (s.setMeas v).tables = s.tables := rfl
@[simp] theorem setMeas_seq (v : MeasUnit) : (s.setMeas v).seq = s.seq := rfl
@[simp] theorem setMeas_seen (v : MeasUnit) : (s.setMeas v).seen = s.seen := rfl
@[simp] theorem setMeas_alloc (v : MeasUnit) : (s.setMeas v).alloc = s.alloc := rfl
@[simp] theorem setMeas_path (v : MeasUnit) : (s.setMeas v).path = s.path := rfl
@[simp] theorem setMeas_input (v : MeasUnit) : (s.setMeas v).input = s.input := rfl
@[simp] theorem setMeas_hinge (v : MeasUnit) : (s.setMeas v).hinge = s.hinge := rfl
@[simp] theorem setMeas_prot (v : MeasUnit) : (s.setMeas v).prot = s.prot := rfl
@[simp] theorem setMeas_inhibit (v : MeasUnit) : (s.setMeas v).inhibit = s.inhibit := rfl
@[simp] theorem setMeas_store (v : MeasUnit) : (s.setMeas v).store = s.store := rfl
@[simp] theorem setMeas_link (v : MeasUnit) : (s.setMeas v).link = s.link := rfl
@[simp] theorem setMeas_handed (v : MeasUnit) : (s.setMeas v).handed = s.handed := rfl
@[simp] theorem setMeas_fresh (v : MeasUnit) : (s.setMeas v).fresh = s.fresh := rfl
@[simp] theorem setMeas_pending (v : MeasUnit) : (s.setMeas v).pending = s.pending := rfl

@[simp] theorem setCounter_factory (c : Cell) (v : CounterRecord) : (s.setCounter c v).factory = s.factory := rfl
@[simp] theorem setCounter_phase (c : Cell) (v : CounterRecord) : (s.setCounter c v).phase = s.phase := rfl
@[simp] theorem setCounter_meas (c : Cell) (v : CounterRecord) : (s.setCounter c v).meas = s.meas := rfl
@[simp] theorem setCounter_counter (c : Cell) (v : CounterRecord) : (s.setCounter c v).counter = s.counter.set c v := rfl
@[simp] theorem setCounter_tables (c : Cell) (v : CounterRecord) : (s.setCounter c v).tables = s.tables := rfl
@[simp] theorem setCounter_seq (c : Cell) (v : CounterRecord) : (s.setCounter c v).seq = s.seq := rfl
@[simp] theorem setCounter_seen (c : Cell) (v : CounterRecord) : (s.setCounter c v).seen = s.seen := rfl
@[simp] theorem setCounter_alloc (c : Cell) (v : CounterRecord) : (s.setCounter c v).alloc = s.alloc := rfl
@[simp] theorem setCounter_path (c : Cell) (v : CounterRecord) : (s.setCounter c v).path = s.path := rfl
@[simp] theorem setCounter_input (c : Cell) (v : CounterRecord) : (s.setCounter c v).input = s.input := rfl
@[simp] theorem setCounter_hinge (c : Cell) (v : CounterRecord) : (s.setCounter c v).hinge = s.hinge := rfl
@[simp] theorem setCounter_prot (c : Cell) (v : CounterRecord) : (s.setCounter c v).prot = s.prot := rfl
@[simp] theorem setCounter_inhibit (c : Cell) (v : CounterRecord) : (s.setCounter c v).inhibit = s.inhibit := rfl
@[simp] theorem setCounter_store (c : Cell) (v : CounterRecord) : (s.setCounter c v).store = s.store := rfl
@[simp] theorem setCounter_link (c : Cell) (v : CounterRecord) : (s.setCounter c v).link = s.link := rfl
@[simp] theorem setCounter_handed (c : Cell) (v : CounterRecord) : (s.setCounter c v).handed = s.handed := rfl
@[simp] theorem setCounter_fresh (c : Cell) (v : CounterRecord) : (s.setCounter c v).fresh = s.fresh := rfl
@[simp] theorem setCounter_pending (c : Cell) (v : CounterRecord) : (s.setCounter c v).pending = s.pending := rfl

@[simp] theorem setTables_factory (v : Tables) : (s.setTables v).factory = s.factory := rfl
@[simp] theorem setTables_phase (v : Tables) : (s.setTables v).phase = s.phase := rfl
@[simp] theorem setTables_meas (v : Tables) : (s.setTables v).meas = s.meas := rfl
@[simp] theorem setTables_counter (v : Tables) : (s.setTables v).counter = s.counter := rfl
@[simp] theorem setTables_tables (v : Tables) : (s.setTables v).tables = v := rfl
@[simp] theorem setTables_seq (v : Tables) : (s.setTables v).seq = s.seq := rfl
@[simp] theorem setTables_seen (v : Tables) : (s.setTables v).seen = s.seen := rfl
@[simp] theorem setTables_alloc (v : Tables) : (s.setTables v).alloc = s.alloc := rfl
@[simp] theorem setTables_path (v : Tables) : (s.setTables v).path = s.path := rfl
@[simp] theorem setTables_input (v : Tables) : (s.setTables v).input = s.input := rfl
@[simp] theorem setTables_hinge (v : Tables) : (s.setTables v).hinge = s.hinge := rfl
@[simp] theorem setTables_prot (v : Tables) : (s.setTables v).prot = s.prot := rfl
@[simp] theorem setTables_inhibit (v : Tables) : (s.setTables v).inhibit = s.inhibit := rfl
@[simp] theorem setTables_store (v : Tables) : (s.setTables v).store = s.store := rfl
@[simp] theorem setTables_link (v : Tables) : (s.setTables v).link = s.link := rfl
@[simp] theorem setTables_handed (v : Tables) : (s.setTables v).handed = s.handed := rfl
@[simp] theorem setTables_fresh (v : Tables) : (s.setTables v).fresh = s.fresh := rfl
@[simp] theorem setTables_pending (v : Tables) : (s.setTables v).pending = s.pending := rfl

@[simp] theorem setSeq_factory (c : Cell) (v : SeqRecord) : (s.setSeq c v).factory = s.factory := rfl
@[simp] theorem setSeq_phase (c : Cell) (v : SeqRecord) : (s.setSeq c v).phase = s.phase := rfl
@[simp] theorem setSeq_meas (c : Cell) (v : SeqRecord) : (s.setSeq c v).meas = s.meas := rfl
@[simp] theorem setSeq_counter (c : Cell) (v : SeqRecord) : (s.setSeq c v).counter = s.counter := rfl
@[simp] theorem setSeq_tables (c : Cell) (v : SeqRecord) : (s.setSeq c v).tables = s.tables := rfl
@[simp] theorem setSeq_seq (c : Cell) (v : SeqRecord) : (s.setSeq c v).seq = s.seq.set c v := rfl
@[simp] theorem setSeq_seen (c : Cell) (v : SeqRecord) : (s.setSeq c v).seen = s.seen := rfl
@[simp] theorem setSeq_alloc (c : Cell) (v : SeqRecord) : (s.setSeq c v).alloc = s.alloc := rfl
@[simp] theorem setSeq_path (c : Cell) (v : SeqRecord) : (s.setSeq c v).path = s.path := rfl
@[simp] theorem setSeq_input (c : Cell) (v : SeqRecord) : (s.setSeq c v).input = s.input := rfl
@[simp] theorem setSeq_hinge (c : Cell) (v : SeqRecord) : (s.setSeq c v).hinge = s.hinge := rfl
@[simp] theorem setSeq_prot (c : Cell) (v : SeqRecord) : (s.setSeq c v).prot = s.prot := rfl
@[simp] theorem setSeq_inhibit (c : Cell) (v : SeqRecord) : (s.setSeq c v).inhibit = s.inhibit := rfl
@[simp] theorem setSeq_store (c : Cell) (v : SeqRecord) : (s.setSeq c v).store = s.store := rfl
@[simp] theorem setSeq_link (c : Cell) (v : SeqRecord) : (s.setSeq c v).link = s.link := rfl
@[simp] theorem setSeq_handed (c : Cell) (v : SeqRecord) : (s.setSeq c v).handed = s.handed := rfl
@[simp] theorem setSeq_fresh (c : Cell) (v : SeqRecord) : (s.setSeq c v).fresh = s.fresh := rfl
@[simp] theorem setSeq_pending (c : Cell) (v : SeqRecord) : (s.setSeq c v).pending = s.pending := rfl

@[simp] theorem setSeen_factory (v : PerCell SeqSeen) : (s.setSeen v).factory = s.factory := rfl
@[simp] theorem setSeen_phase (v : PerCell SeqSeen) : (s.setSeen v).phase = s.phase := rfl
@[simp] theorem setSeen_meas (v : PerCell SeqSeen) : (s.setSeen v).meas = s.meas := rfl
@[simp] theorem setSeen_counter (v : PerCell SeqSeen) : (s.setSeen v).counter = s.counter := rfl
@[simp] theorem setSeen_tables (v : PerCell SeqSeen) : (s.setSeen v).tables = s.tables := rfl
@[simp] theorem setSeen_seq (v : PerCell SeqSeen) : (s.setSeen v).seq = s.seq := rfl
@[simp] theorem setSeen_seen (v : PerCell SeqSeen) : (s.setSeen v).seen = v := rfl
@[simp] theorem setSeen_alloc (v : PerCell SeqSeen) : (s.setSeen v).alloc = s.alloc := rfl
@[simp] theorem setSeen_path (v : PerCell SeqSeen) : (s.setSeen v).path = s.path := rfl
@[simp] theorem setSeen_input (v : PerCell SeqSeen) : (s.setSeen v).input = s.input := rfl
@[simp] theorem setSeen_hinge (v : PerCell SeqSeen) : (s.setSeen v).hinge = s.hinge := rfl
@[simp] theorem setSeen_prot (v : PerCell SeqSeen) : (s.setSeen v).prot = s.prot := rfl
@[simp] theorem setSeen_inhibit (v : PerCell SeqSeen) : (s.setSeen v).inhibit = s.inhibit := rfl
@[simp] theorem setSeen_store (v : PerCell SeqSeen) : (s.setSeen v).store = s.store := rfl
@[simp] theorem setSeen_link (v : PerCell SeqSeen) : (s.setSeen v).link = s.link := rfl
@[simp] theorem setSeen_handed (v : PerCell SeqSeen) : (s.setSeen v).handed = s.handed := rfl
@[simp] theorem setSeen_fresh (v : PerCell SeqSeen) : (s.setSeen v).fresh = s.fresh := rfl
@[simp] theorem setSeen_pending (v : PerCell SeqSeen) : (s.setSeen v).pending = s.pending := rfl

@[simp] theorem setAlloc_factory (v : Allocator) : (s.setAlloc v).factory = s.factory := rfl
@[simp] theorem setAlloc_phase (v : Allocator) : (s.setAlloc v).phase = s.phase := rfl
@[simp] theorem setAlloc_meas (v : Allocator) : (s.setAlloc v).meas = s.meas := rfl
@[simp] theorem setAlloc_counter (v : Allocator) : (s.setAlloc v).counter = s.counter := rfl
@[simp] theorem setAlloc_tables (v : Allocator) : (s.setAlloc v).tables = s.tables := rfl
@[simp] theorem setAlloc_seq (v : Allocator) : (s.setAlloc v).seq = s.seq := rfl
@[simp] theorem setAlloc_seen (v : Allocator) : (s.setAlloc v).seen = s.seen := rfl
@[simp] theorem setAlloc_alloc (v : Allocator) : (s.setAlloc v).alloc = v := rfl
@[simp] theorem setAlloc_path (v : Allocator) : (s.setAlloc v).path = s.path := rfl
@[simp] theorem setAlloc_input (v : Allocator) : (s.setAlloc v).input = s.input := rfl
@[simp] theorem setAlloc_hinge (v : Allocator) : (s.setAlloc v).hinge = s.hinge := rfl
@[simp] theorem setAlloc_prot (v : Allocator) : (s.setAlloc v).prot = s.prot := rfl
@[simp] theorem setAlloc_inhibit (v : Allocator) : (s.setAlloc v).inhibit = s.inhibit := rfl
@[simp] theorem setAlloc_store (v : Allocator) : (s.setAlloc v).store = s.store := rfl
@[simp] theorem setAlloc_link (v : Allocator) : (s.setAlloc v).link = s.link := rfl
@[simp] theorem setAlloc_handed (v : Allocator) : (s.setAlloc v).handed = s.handed := rfl
@[simp] theorem setAlloc_fresh (v : Allocator) : (s.setAlloc v).fresh = s.fresh := rfl
@[simp] theorem setAlloc_pending (v : Allocator) : (s.setAlloc v).pending = s.pending := rfl

@[simp] theorem setPath_factory (c : Cell) (v : PathRecord) : (s.setPath c v).factory = s.factory := rfl
@[simp] theorem setPath_phase (c : Cell) (v : PathRecord) : (s.setPath c v).phase = s.phase := rfl
@[simp] theorem setPath_meas (c : Cell) (v : PathRecord) : (s.setPath c v).meas = s.meas := rfl
@[simp] theorem setPath_counter (c : Cell) (v : PathRecord) : (s.setPath c v).counter = s.counter := rfl
@[simp] theorem setPath_tables (c : Cell) (v : PathRecord) : (s.setPath c v).tables = s.tables := rfl
@[simp] theorem setPath_seq (c : Cell) (v : PathRecord) : (s.setPath c v).seq = s.seq := rfl
@[simp] theorem setPath_seen (c : Cell) (v : PathRecord) : (s.setPath c v).seen = s.seen := rfl
@[simp] theorem setPath_alloc (c : Cell) (v : PathRecord) : (s.setPath c v).alloc = s.alloc := rfl
@[simp] theorem setPath_path (c : Cell) (v : PathRecord) : (s.setPath c v).path = s.path.set c v := rfl
@[simp] theorem setPath_input (c : Cell) (v : PathRecord) : (s.setPath c v).input = s.input := rfl
@[simp] theorem setPath_hinge (c : Cell) (v : PathRecord) : (s.setPath c v).hinge = s.hinge := rfl
@[simp] theorem setPath_prot (c : Cell) (v : PathRecord) : (s.setPath c v).prot = s.prot := rfl
@[simp] theorem setPath_inhibit (c : Cell) (v : PathRecord) : (s.setPath c v).inhibit = s.inhibit := rfl
@[simp] theorem setPath_store (c : Cell) (v : PathRecord) : (s.setPath c v).store = s.store := rfl
@[simp] theorem setPath_link (c : Cell) (v : PathRecord) : (s.setPath c v).link = s.link := rfl
@[simp] theorem setPath_handed (c : Cell) (v : PathRecord) : (s.setPath c v).handed = s.handed := rfl
@[simp] theorem setPath_fresh (c : Cell) (v : PathRecord) : (s.setPath c v).fresh = s.fresh := rfl
@[simp] theorem setPath_pending (c : Cell) (v : PathRecord) : (s.setPath c v).pending = s.pending := rfl

@[simp] theorem setInput_factory (v : InputStage) : (s.setInput v).factory = s.factory := rfl
@[simp] theorem setInput_phase (v : InputStage) : (s.setInput v).phase = s.phase := rfl
@[simp] theorem setInput_meas (v : InputStage) : (s.setInput v).meas = s.meas := rfl
@[simp] theorem setInput_counter (v : InputStage) : (s.setInput v).counter = s.counter := rfl
@[simp] theorem setInput_tables (v : InputStage) : (s.setInput v).tables = s.tables := rfl
@[simp] theorem setInput_seq (v : InputStage) : (s.setInput v).seq = s.seq := rfl
@[simp] theorem setInput_seen (v : InputStage) : (s.setInput v).seen = s.seen := rfl
@[simp] theorem setInput_alloc (v : InputStage) : (s.setInput v).alloc = s.alloc := rfl
@[simp] theorem setInput_path (v : InputStage) : (s.setInput v).path = s.path := rfl
@[simp] theorem setInput_input (v : InputStage) : (s.setInput v).input = v := rfl
@[simp] theorem setInput_hinge (v : InputStage) : (s.setInput v).hinge = s.hinge := rfl
@[simp] theorem setInput_prot (v : InputStage) : (s.setInput v).prot = s.prot := rfl
@[simp] theorem setInput_inhibit (v : InputStage) : (s.setInput v).inhibit = s.inhibit := rfl
@[simp] theorem setInput_store (v : InputStage) : (s.setInput v).store = s.store := rfl
@[simp] theorem setInput_link (v : InputStage) : (s.setInput v).link = s.link := rfl
@[simp] theorem setInput_handed (v : InputStage) : (s.setInput v).handed = s.handed := rfl
@[simp] theorem setInput_fresh (v : InputStage) : (s.setInput v).fresh = s.fresh := rfl
@[simp] theorem setInput_pending (v : InputStage) : (s.setInput v).pending = s.pending := rfl

@[simp] theorem setHinge_factory (v : Hinge) : (s.setHinge v).factory = s.factory := rfl
@[simp] theorem setHinge_phase (v : Hinge) : (s.setHinge v).phase = s.phase := rfl
@[simp] theorem setHinge_meas (v : Hinge) : (s.setHinge v).meas = s.meas := rfl
@[simp] theorem setHinge_counter (v : Hinge) : (s.setHinge v).counter = s.counter := rfl
@[simp] theorem setHinge_tables (v : Hinge) : (s.setHinge v).tables = s.tables := rfl
@[simp] theorem setHinge_seq (v : Hinge) : (s.setHinge v).seq = s.seq := rfl
@[simp] theorem setHinge_seen (v : Hinge) : (s.setHinge v).seen = s.seen := rfl
@[simp] theorem setHinge_alloc (v : Hinge) : (s.setHinge v).alloc = s.alloc := rfl
@[simp] theorem setHinge_path (v : Hinge) : (s.setHinge v).path = s.path := rfl
@[simp] theorem setHinge_input (v : Hinge) : (s.setHinge v).input = s.input := rfl
@[simp] theorem setHinge_hinge (v : Hinge) : (s.setHinge v).hinge = v := rfl
@[simp] theorem setHinge_prot (v : Hinge) : (s.setHinge v).prot = s.prot := rfl
@[simp] theorem setHinge_inhibit (v : Hinge) : (s.setHinge v).inhibit = s.inhibit := rfl
@[simp] theorem setHinge_store (v : Hinge) : (s.setHinge v).store = s.store := rfl
@[simp] theorem setHinge_link (v : Hinge) : (s.setHinge v).link = s.link := rfl
@[simp] theorem setHinge_handed (v : Hinge) : (s.setHinge v).handed = s.handed := rfl
@[simp] theorem setHinge_fresh (v : Hinge) : (s.setHinge v).fresh = s.fresh := rfl
@[simp] theorem setHinge_pending (v : Hinge) : (s.setHinge v).pending = s.pending := rfl

@[simp] theorem setProt_factory (v : Protection) : (s.setProt v).factory = s.factory := rfl
@[simp] theorem setProt_phase (v : Protection) : (s.setProt v).phase = s.phase := rfl
@[simp] theorem setProt_meas (v : Protection) : (s.setProt v).meas = s.meas := rfl
@[simp] theorem setProt_counter (v : Protection) : (s.setProt v).counter = s.counter := rfl
@[simp] theorem setProt_tables (v : Protection) : (s.setProt v).tables = s.tables := rfl
@[simp] theorem setProt_seq (v : Protection) : (s.setProt v).seq = s.seq := rfl
@[simp] theorem setProt_seen (v : Protection) : (s.setProt v).seen = s.seen := rfl
@[simp] theorem setProt_alloc (v : Protection) : (s.setProt v).alloc = s.alloc := rfl
@[simp] theorem setProt_path (v : Protection) : (s.setProt v).path = s.path := rfl
@[simp] theorem setProt_input (v : Protection) : (s.setProt v).input = s.input := rfl
@[simp] theorem setProt_hinge (v : Protection) : (s.setProt v).hinge = s.hinge := rfl
@[simp] theorem setProt_prot (v : Protection) : (s.setProt v).prot = v := rfl
@[simp] theorem setProt_inhibit (v : Protection) : (s.setProt v).inhibit = s.inhibit := rfl
@[simp] theorem setProt_store (v : Protection) : (s.setProt v).store = s.store := rfl
@[simp] theorem setProt_link (v : Protection) : (s.setProt v).link = s.link := rfl
@[simp] theorem setProt_handed (v : Protection) : (s.setProt v).handed = s.handed := rfl
@[simp] theorem setProt_fresh (v : Protection) : (s.setProt v).fresh = s.fresh := rfl
@[simp] theorem setProt_pending (v : Protection) : (s.setProt v).pending = s.pending := rfl

@[simp] theorem setInhibit_factory (c : Cell) (v : Byte) : (s.setInhibit c v).factory = s.factory := rfl
@[simp] theorem setInhibit_phase (c : Cell) (v : Byte) : (s.setInhibit c v).phase = s.phase := rfl
@[simp] theorem setInhibit_meas (c : Cell) (v : Byte) : (s.setInhibit c v).meas = s.meas := rfl
@[simp] theorem setInhibit_counter (c : Cell) (v : Byte) : (s.setInhibit c v).counter = s.counter := rfl
@[simp] theorem setInhibit_tables (c : Cell) (v : Byte) : (s.setInhibit c v).tables = s.tables := rfl
@[simp] theorem setInhibit_seq (c : Cell) (v : Byte) : (s.setInhibit c v).seq = s.seq := rfl
@[simp] theorem setInhibit_seen (c : Cell) (v : Byte) : (s.setInhibit c v).seen = s.seen := rfl
@[simp] theorem setInhibit_alloc (c : Cell) (v : Byte) : (s.setInhibit c v).alloc = s.alloc := rfl
@[simp] theorem setInhibit_path (c : Cell) (v : Byte) : (s.setInhibit c v).path = s.path := rfl
@[simp] theorem setInhibit_input (c : Cell) (v : Byte) : (s.setInhibit c v).input = s.input := rfl
@[simp] theorem setInhibit_hinge (c : Cell) (v : Byte) : (s.setInhibit c v).hinge = s.hinge := rfl
@[simp] theorem setInhibit_prot (c : Cell) (v : Byte) : (s.setInhibit c v).prot = s.prot := rfl
@[simp] theorem setInhibit_inhibit (c : Cell) (v : Byte) : (s.setInhibit c v).inhibit = s.inhibit.set c v := rfl
@[simp] theorem setInhibit_store (c : Cell) (v : Byte) : (s.setInhibit c v).store = s.store := rfl
@[simp] theorem setInhibit_link (c : Cell) (v : Byte) : (s.setInhibit c v).link = s.link := rfl
@[simp] theorem setInhibit_handed (c : Cell) (v : Byte) : (s.setInhibit c v).handed = s.handed := rfl
@[simp] theorem setInhibit_fresh (c : Cell) (v : Byte) : (s.setInhibit c v).fresh = s.fresh := rfl
@[simp] theorem setInhibit_pending (c : Cell) (v : Byte) : (s.setInhibit c v).pending = s.pending := rfl

@[simp] theorem setStore_factory (v : Store) : (s.setStore v).factory = s.factory := rfl
@[simp] theorem setStore_phase (v : Store) : (s.setStore v).phase = s.phase := rfl
@[simp] theorem setStore_meas (v : Store) : (s.setStore v).meas = s.meas := rfl
@[simp] theorem setStore_counter (v : Store) : (s.setStore v).counter = s.counter := rfl
@[simp] theorem setStore_tables (v : Store) : (s.setStore v).tables = s.tables := rfl
@[simp] theorem setStore_seq (v : Store) : (s.setStore v).seq = s.seq := rfl
@[simp] theorem setStore_seen (v : Store) : (s.setStore v).seen = s.seen := rfl
@[simp] theorem setStore_alloc (v : Store) : (s.setStore v).alloc = s.alloc := rfl
@[simp] theorem setStore_path (v : Store) : (s.setStore v).path = s.path := rfl
@[simp] theorem setStore_input (v : Store) : (s.setStore v).input = s.input := rfl
@[simp] theorem setStore_hinge (v : Store) : (s.setStore v).hinge = s.hinge := rfl
@[simp] theorem setStore_prot (v : Store) : (s.setStore v).prot = s.prot := rfl
@[simp] theorem setStore_inhibit (v : Store) : (s.setStore v).inhibit = s.inhibit := rfl
@[simp] theorem setStore_store (v : Store) : (s.setStore v).store = v := rfl
@[simp] theorem setStore_link (v : Store) : (s.setStore v).link = s.link := rfl
@[simp] theorem setStore_handed (v : Store) : (s.setStore v).handed = s.handed := rfl
@[simp] theorem setStore_fresh (v : Store) : (s.setStore v).fresh = s.fresh := rfl
@[simp] theorem setStore_pending (v : Store) : (s.setStore v).pending = s.pending := rfl

@[simp] theorem setLink_factory (v : Link) : (s.setLink v).factory = s.factory := rfl
@[simp] theorem setLink_phase (v : Link) : (s.setLink v).phase = s.phase := rfl
@[simp] theorem setLink_meas (v : Link) : (s.setLink v).meas = s.meas := rfl
@[simp] theorem setLink_counter (v : Link) : (s.setLink v).counter = s.counter := rfl
@[simp] theorem setLink_tables (v : Link) : (s.setLink v).tables = s.tables := rfl
@[simp] theorem setLink_seq (v : Link) : (s.setLink v).seq = s.seq := rfl
@[simp] theorem setLink_seen (v : Link) : (s.setLink v).seen = s.seen := rfl
@[simp] theorem setLink_alloc (v : Link) : (s.setLink v).alloc = s.alloc := rfl
@[simp] theorem setLink_path (v : Link) : (s.setLink v).path = s.path := rfl
@[simp] theorem setLink_input (v : Link) : (s.setLink v).input = s.input := rfl
@[simp] theorem setLink_hinge (v : Link) : (s.setLink v).hinge = s.hinge := rfl
@[simp] theorem setLink_prot (v : Link) : (s.setLink v).prot = s.prot := rfl
@[simp] theorem setLink_inhibit (v : Link) : (s.setLink v).inhibit = s.inhibit := rfl
@[simp] theorem setLink_store (v : Link) : (s.setLink v).store = s.store := rfl
@[simp] theorem setLink_link (v : Link) : (s.setLink v).link = v := rfl
@[simp] theorem setLink_handed (v : Link) : (s.setLink v).handed = s.handed := rfl
@[simp] theorem setLink_fresh (v : Link) : (s.setLink v).fresh = s.fresh := rfl
@[simp] theorem setLink_pending (v : Link) : (s.setLink v).pending = s.pending := rfl

@[simp] theorem setHanded_factory (v : Handed) : (s.setHanded v).factory = s.factory := rfl
@[simp] theorem setHanded_phase (v : Handed) : (s.setHanded v).phase = s.phase := rfl
@[simp] theorem setHanded_meas (v : Handed) : (s.setHanded v).meas = s.meas := rfl
@[simp] theorem setHanded_counter (v : Handed) : (s.setHanded v).counter = s.counter := rfl
@[simp] theorem setHanded_tables (v : Handed) : (s.setHanded v).tables = s.tables := rfl
@[simp] theorem setHanded_seq (v : Handed) : (s.setHanded v).seq = s.seq := rfl
@[simp] theorem setHanded_seen (v : Handed) : (s.setHanded v).seen = s.seen := rfl
@[simp] theorem setHanded_alloc (v : Handed) : (s.setHanded v).alloc = s.alloc := rfl
@[simp] theorem setHanded_path (v : Handed) : (s.setHanded v).path = s.path := rfl
@[simp] theorem setHanded_input (v : Handed) : (s.setHanded v).input = s.input := rfl
@[simp] theorem setHanded_hinge (v : Handed) : (s.setHanded v).hinge = s.hinge := rfl
@[simp] theorem setHanded_prot (v : Handed) : (s.setHanded v).prot = s.prot := rfl
@[simp] theorem setHanded_inhibit (v : Handed) : (s.setHanded v).inhibit = s.inhibit := rfl
@[simp] theorem setHanded_store (v : Handed) : (s.setHanded v).store = s.store := rfl
@[simp] theorem setHanded_link (v : Handed) : (s.setHanded v).link = s.link := rfl
@[simp] theorem setHanded_handed (v : Handed) : (s.setHanded v).handed = v := rfl
@[simp] theorem setHanded_fresh (v : Handed) : (s.setHanded v).fresh = s.fresh := rfl
@[simp] theorem setHanded_pending (v : Handed) : (s.setHanded v).pending = s.pending := rfl

@[simp] theorem setFresh_factory (v : Nat) : (s.setFresh v).factory = s.factory := rfl
@[simp] theorem setFresh_phase (v : Nat) : (s.setFresh v).phase = s.phase := rfl
@[simp] theorem setFresh_meas (v : Nat) : (s.setFresh v).meas = s.meas := rfl
@[simp] theorem setFresh_counter (v : Nat) : (s.setFresh v).counter = s.counter := rfl
@[simp] theorem setFresh_tables (v : Nat) : (s.setFresh v).tables = s.tables := rfl
@[simp] theorem setFresh_seq (v : Nat) : (s.setFresh v).seq = s.seq := rfl
@[simp] theorem setFresh_seen (v : Nat) : (s.setFresh v).seen = s.seen := rfl
@[simp] theorem setFresh_alloc (v : Nat) : (s.setFresh v).alloc = s.alloc := rfl
@[simp] theorem setFresh_path (v : Nat) : (s.setFresh v).path = s.path := rfl
@[simp] theorem setFresh_input (v : Nat) : (s.setFresh v).input = s.input := rfl
@[simp] theorem setFresh_hinge (v : Nat) : (s.setFresh v).hinge = s.hinge := rfl
@[simp] theorem setFresh_prot (v : Nat) : (s.setFresh v).prot = s.prot := rfl
@[simp] theorem setFresh_inhibit (v : Nat) : (s.setFresh v).inhibit = s.inhibit := rfl
@[simp] theorem setFresh_store (v : Nat) : (s.setFresh v).store = s.store := rfl
@[simp] theorem setFresh_link (v : Nat) : (s.setFresh v).link = s.link := rfl
@[simp] theorem setFresh_handed (v : Nat) : (s.setFresh v).handed = s.handed := rfl
@[simp] theorem setFresh_fresh (v : Nat) : (s.setFresh v).fresh = v := rfl
@[simp] theorem setFresh_pending (v : Nat) : (s.setFresh v).pending = s.pending := rfl

end State
end Machine
end Sys2Proof
end

