-- ==== Sys2Proof/Laws/Ops.lean ====
section
/-! SUPPORT. Laws/Ops.lean: everything that each shared operation can do, as one lemma each: an equation where the result is one update, and the frame with what it leaves open where it is not. -/

namespace Sys2Proof.Machine

/-! ### Notices -/

namespace Link
variable (l : Link) (frame : Nat) (p : Payload)

@[simp] theorem notify_reply : (l.notify frame p).reply = l.reply := by
  unfold notify; split <;> rfl
@[simp] theorem notify_enabled : (l.notify frame p).enabled = l.enabled := by
  unfold notify; split <;> rfl
@[simp] theorem notify_supervisor : (l.notify frame p).supervisor = l.supervisor := by
  unfold notify; split <;> rfl
@[simp] theorem notify_lastRead : (l.notify frame p).lastRead = l.lastRead := by
  unfold notify; split <;> rfl

theorem notify_masked (h : hasBit l.enabled p.kind = false) : l.notify frame p = l := by
  simp [notify, h]

theorem notify_enabled_kind (h : hasBit l.enabled p.kind = true) :
    l.notify frame p = { l with queue := enqueue p frame l.queue } := by
  simp [notify, h]

end Link

/-- A kind that no entry has joins at the end. -/
theorem enqueue_new (p : Payload) (frame : Nat) (q : List Entry)
    (h : ∀ e ∈ q, e.payload.kind ≠ p.kind) : enqueue p frame q = q ++ [⟨p, 1, frame⟩] := by
  induction q with
  | nil => rfl
  | cons e es ih =>
    have he : e.payload.kind ≠ p.kind := h e (by simp)
    have ht : ∀ x ∈ es, x.payload.kind ≠ p.kind := fun x hx => h x (by simp [hx])
    simp [enqueue, he, ih ht]

/-- A kind that an entry has merges into the first such entry. -/
theorem enqueue_merge (p : Payload) (frame : Nat) (before after : List Entry) (e : Entry)
    (hb : ∀ x ∈ before, x.payload.kind ≠ p.kind) (he : e.payload.kind = p.kind) :
    enqueue p frame (before ++ e :: after)
      = before ++ { e with payload := e.payload.merge p, count := countUpTo 255 e.count } :: after := by
  induction before with
  | nil => simp [enqueue, he]
  | cons x xs ih =>
    have hx : x.payload.kind ≠ p.kind := hb x (by simp)
    have ht : ∀ y ∈ xs, y.payload.kind ≠ p.kind := fun y hy => hb y (by simp [hy])
    simp [enqueue, hx, ih ht]

/-- A merged payload keeps its kind. -/
theorem Payload.merge_kind (old new : Payload) (h : old.kind = new.kind) :
    (old.merge new).kind = new.kind := by
  unfold Payload.merge
  split <;> simp_all [Payload.kind]

/-- Queuing changes the queue's kinds by at most its own, at the end. -/
theorem enqueue_kinds (p : Payload) (frame : Nat) (q : List Entry) :
    (enqueue p frame q).map (fun e => e.payload.kind)
      = if p.kind ∈ q.map (fun e => e.payload.kind) then q.map (fun e => e.payload.kind)
        else q.map (fun e => e.payload.kind) ++ [p.kind] := by
  induction q with
  | nil => simp [enqueue]
  | cons e es ih =>
    by_cases he : e.payload.kind = p.kind
    · simp [enqueue, he, Payload.merge_kind _ _ he]
    · have he' : ¬ p.kind = e.payload.kind := fun h => he h.symm
      simp only [enqueue, if_neg he, List.map_cons, ih, List.mem_cons, he', false_or]
      split <;> simp

/-! ### Timers -/

/-- A timer's expiry takes place with no time left on it, and only then. -/
theorem timeUp_iff (t : Option Nat) : timeUp t = true ↔ t = some 0 := by simp [timeUp]

theorem timeUp_running (n : Nat) : timeUp (some (n + 1)) = false := by simp [timeUp]

theorem timeUp_stopped : timeUp none = false := rfl

/-! ### The input switch -/

/-- In ACTIVE the input switch holds the input current to ILIM in force (R132). -/
theorem InputStage.switch_active (r : InputStage) (h : r.state = .active) : r.switch = .held r.ilim := by
  simp [InputStage.switch, h]

/-- In every other state the input switch is off (R132). -/
theorem InputStage.switch_off (r : InputStage) (h : r.state ≠ .active) : r.switch = .blocked := by
  unfold InputStage.switch
  split <;> first | rfl | contradiction

/-- The input switch is on exactly where it conducts (R132). -/
theorem State.inputSwitchOn_iff (s : State) : s.inputSwitchOn = true ↔ s.inputSwitch ≠ .blocked := by
  unfold State.inputSwitchOn State.inputActive State.inputSwitch InputStage.switch
  cases s.input.state <;> simp

namespace State
variable (s : State)

theorem notify_eq (p : Payload) :
    s.notify p = { s with link := s.link.notify s.alloc.frame.number p } := rfl

/-! ### Paths -/

theorem recompute_eq (c : Cell) :
    s.recompute c = { s with
      path := s.path.set c
        ((s.path.get c).take (tenths (Limits.rampMs s.tables.limits)) (s.pathResult c)) } := rfl

theorem orderPath_eq (c : Cell) (o : Order) :
    s.orderPath c o = { s with
      path := s.path.set c
        (PathRecord.take { s.path.get c with ordered := o } (tenths (Limits.rampMs s.tables.limits))
          (restricted
            (conditioned c s.inputActive s.hinge.settled (Limits.hingeCap s.tables.limits) o)
            (s.path.get c).restriction)) } := by
  cases c <;> rfl

theorem hingeCapWritten_eq :
    s.hingeCapWritten = if s.hinge.settled then s else s.recompute .far := rfl

/-! ### The transfer -/

theorem endTransfer_eq (cause : EndCause) :
    s.endTransfer cause = { s with
      alloc := { s.alloc with transfer := { s.alloc.transfer with
        active := false, lastEnd := cause, cooldown := Balance.xferCool s.tables.balance } }
      link := s.link.notify s.alloc.frame.number
        (.transfer cause s.alloc.transfer.donor s.alloc.transfer.receiver s.alloc.transfer.moved
          s.alloc.transfer.frames) } := rfl

theorem receiverDiode_frame (receiver : Option Cell) :
    s.receiverDiode receiver = { s with path := (s.receiverDiode receiver).path } := by
  cases receiver <;> rfl

theorem endTransferOnEvent_idle (cause : EndCause) (h : s.alloc.transfer.active = false) :
    s.endTransferOnEvent cause = s := by
  simp [endTransferOnEvent, h]

/-- An end on an event touches the transfer record, the frame record, the receiver's path and the link
alone. -/
theorem endTransferOnEvent_frame (cause : EndCause) :
    s.endTransferOnEvent cause = { s with
      alloc := (s.endTransferOnEvent cause).alloc
      path := (s.endTransferOnEvent cause).path
      link := (s.endTransferOnEvent cause).link } := by
  unfold endTransferOnEvent
  split
  · cases s.alloc.transfer.receiver <;> rfl
  · rfl

theorem endTransferOnEvent_inactive (cause : EndCause) :
    (s.endTransferOnEvent cause).alloc.transfer.active = false := by
  unfold endTransferOnEvent
  split
  · cases s.alloc.transfer.receiver <;> rfl
  · simp_all

/-! ### The input stage -/

theorem moveInput_same : s.moveInput s.input.state = s := by simp [moveInput]

theorem moveInput_eq (new : InputState) (h : new ≠ s.input.state) :
    s.moveInput new = { s with
      input := s.input.enter (tenths (Limits.qualMs s.tables.limits)) new
      link := s.link.notify s.alloc.frame.number
        (.input new s.input.state s.input.reasons s.input.ilim
          (if new = .active then 1000 else s.input.sd))
      handed :=
        if new = .active then s.handed.signal .granted
        else if s.input.state = .active then s.handed.signal .withdrawn
        else s.handed } := by
  simp only [moveInput, if_neg h]
  rfl

/-- A move touches the input stage, the link and what is handed on alone. -/
theorem moveInput_frame (new : InputState) :
    s.moveInput new = { s with
      input := (s.moveInput new).input
      link := (s.moveInput new).link
      handed := (s.moveInput new).handed } := by
  by_cases h : new = s.input.state
  · subst h; simp [moveInput_same]
  · rw [moveInput_eq s new h]

theorem setReasons_eq (new : SuspendReasons) :
    s.setReasons new =
      let t := s.setInput { s.input with reasons := new }
      if s.input.state = .active ∧ s.input.reasons.any = false ∧ new.any = true then
        t.moveInput .suspended
      else if s.input.state = .suspended ∧ s.input.reasons.any = true ∧ new.any = false then
        t.moveInput .active
      else t := by
  unfold setReasons
  cases hs : s.input.state <;> cases ha : s.input.reasons.any <;> cases hn : new.any <;> simp

/-- A change of the suspend reasons touches the input stage, the link and what is handed on alone. -/
theorem setReasons_frame (new : SuspendReasons) :
    s.setReasons new = { s with
      input := (s.setReasons new).input
      link := (s.setReasons new).link
      handed := (s.setReasons new).handed } := by
  rw [setReasons_eq]
  dsimp only
  split
  · conv => lhs; rw [moveInput_frame]
    rfl
  · split
    · conv => lhs; rw [moveInput_frame]
      rfl
    · rfl

/-! ### Protection -/

theorem setFaults_eq (new : PerFault FaultRecord) :
    s.setFaults new = { s with
      prot := { s.prot with record := new }
      handed := { s.handed with
        pathBlocks :=
          ⟨if (pathKinds .near).any fun k =>
              (s.prot.record.get k).inForce != (new.get k).inForce then
              s.handed.pathBlocks.near ++ [blocksOn new .near] else s.handed.pathBlocks.near,
           if (pathKinds .far).any fun k =>
              (s.prot.record.get k).inForce != (new.get k).inForce then
              s.handed.pathBlocks.far ++ [blocksOn new .far] else s.handed.pathBlocks.far⟩
        die := if (s.prot.record.get .dieOt).inForce != (new.get .dieOt).inForce then
          s.handed.die ++ [new.dieOt.inForce] else s.handed.die } } := by
  simp [setFaults, setProt, setHanded]

theorem notifyFaults_eq (ks : List FaultKind) :
    s.notifyFaults ks = { s with
      link := ks.foldl (fun l k => l.notify s.alloc.frame.number (.fault (bit k.num))) s.link } := by
  unfold notifyFaults
  induction ks generalizing s with
  | nil => rfl
  | cons k ks ih => rw [List.foldl_cons, ih]; rfl

/-! ### Sequencers -/

/-- A new record touches the sequencer and the link alone; the notice is queued on a change of state, stage
or band. -/
theorem updateSeq_eq (c : Cell) (new : SeqRecord) :
    s.updateSeq c new = { s with
      seq := s.seq.set c new
      link := if seqNotable (s.seq.get c) new then
          s.link.notify s.alloc.frame.number (seqPayload c new) else s.link } := by
  unfold updateSeq
  split <;> rfl

theorem setSeenOf_eq (c : Cell) (v : SeqSeen) : s.setSeenOf c v = { s with seen := s.seen.set c v } := rfl

/-- A set that is handled touches the sequencer, the VC it works from, the link and the full marks alone. -/
theorem handleSet_frame (c : Cell) (m : MeasSet) :
    s.handleSet c m = { s with
      seq := (s.handleSet c m).seq
      seen := s.seen.set c ((s.seen.get c).onSet c m)
      link := (s.handleSet c m).link
      handed := { s.handed with fullMark := (s.handleSet c m).handed.fullMark } } := by
  unfold handleSet
  dsimp only
  split <;> (rw [updateSeq_eq, setSeenOf_eq]; try rfl)

/-- What the sequencers work from becomes the active tables; VC stays. -/
theorem startSequencers_eq :
    s.startSequencers = { s with seen :=
      ⟨{ s.seen.near with prof := s.tables.profile.near.active, bands := s.tables.bands.active },
       { s.seen.far with prof := s.tables.profile.far.active, bands := s.tables.bands.active }⟩ } := rfl

/-! ### Tables -/

theorem forceLimits_frame (offset n : Nat) (new : Words) :
    s.forceLimits offset n new = { s with
      tables := { s.tables with limits := new }
      path := ⟨s.path.near, (s.forceLimits offset n new).path.far⟩ } := by
  unfold forceLimits hingeCapWritten
  dsimp only
  split
  · split <;> rfl
  · rfl

theorem setProtectWords_frame (new : Words) :
    s.setProtectWords new = { s with
      tables := { s.tables with protect := new }
      prot := { s.prot with record := (s.setProtectWords new).prot.record }
      handed := { s.handed with
        pathBlocks := (s.setProtectWords new).handed.pathBlocks
        die := (s.setProtectWords new).handed.die } } := by
  unfold setProtectWords
  rw [setFaults_eq]
  rfl

/-- Words that come into force touch the tables, the counters, the far path, the fault records and
protection's hand-ons alone. -/
theorem force_frame (r : RecordId) (offset n : Nat) (new : Words) :
    s.force r offset n new = { s with
      tables := (s.force r offset n new).tables
      counter := (s.force r offset n new).counter
      path := (s.force r offset n new).path
      prot := (s.force r offset n new).prot
      handed := (s.force r offset n new).handed } := by
  cases r <;> unfold force <;> dsimp only
  case limits =>
    unfold forceLimits hingeCapWritten
    dsimp only
    split
    · split <;> rfl
    · rfl
  case protect => rfl
  all_goals rfl

theorem setCopies_frame (r : RecordId) (v : Copies) :
    s.setCopies r v = { s with tables := (s.setCopies r v).tables } := by
  cases r <;> rfl

theorem copiesOf_setCopies (r : RecordId) (v k : Copies) (h : s.copiesOf r = some k) :
    (s.setCopies r v).copiesOf r = some v := by
  cases r <;> simp_all [copiesOf, setCopies]

/-- A promotion attempt touches the tables, the link and the promotions that wait alone. -/
theorem promote_frame (r : RecordId) (k : Copies) (source : ProfileSource) :
    s.promote r k source = { s with
      tables := (s.promote r k source).tables
      link := (s.promote r k source).link
      handed := { s.handed with seqPromotion := (s.promote r k source).handed.seqPromotion } } := by
  unfold promote
  dsimp only
  split <;> cases r <;> rfl

/-! ### The link -/

theorem holdReply_eq (bytes : List Byte) :
    s.holdReply bytes = { s with link := { s.link with reply := some bytes }, fresh := s.fresh + 1 } := rfl

theorem restartSupervisor_eq :
    s.restartSupervisor = { s with
      link := { s.link with supervisor := supervisorTime (Limits.hostTimeout s.tables.limits) } } := rfl

theorem request_running (k : RequestKind) (tag : Byte) (act : State → Answer)
    (h : s.phase = .running) : s.request k tag act = .next ((act s).reply k.code tag) := by
  simp [request, h]

theorem request_closed (k : RequestKind) (tag : Byte) (act : State → Answer)
    (h : s.phase ≠ .running) : s.request k tag act = .next s := by
  simp [request, h]

/-! ### Settings -/

theorem setInhibitSet_same (c : Cell) : s.setInhibitSet c (s.inhibit.get c) = s := by
  simp [setInhibitSet]

theorem setInhibitSet_eq (c : Cell) (new : Byte) (h : new ≠ s.inhibit.get c) :
    s.setInhibitSet c new = { s with
      inhibit := s.inhibit.set c new
      handed := s.handed.inhibitChange c (s.inhibit.get c) new } := by
  simp only [setInhibitSet, if_neg h]
  rfl

/-- A new inhibit set touches the set, the sequencer's events and the transfer's events alone. -/
theorem setInhibitSet_frame (c : Cell) (new : Byte) :
    s.setInhibitSet c new = { s with
      inhibit := s.inhibit.set c new
      handed := { s.handed with
        seqInhibit := (s.setInhibitSet c new).handed.seqInhibit
        transfer := (s.setInhibitSet c new).handed.transfer } } := by
  by_cases h : new = s.inhibit.get c
  · subst h; simp [setInhibitSet_same]
  · rw [setInhibitSet_eq s c new h]; rfl

theorem setCeiling_frame (v : Int) (c : Cell) :
    s.setCeiling v c = { s with
      seq := s.seq.set c (Seq.setCeiling (s.seqEnv c) v (s.seq.get c))
      link := (s.setCeiling v c).link } := by
  unfold setCeiling
  rw [updateSeq_eq]

end State

theorem Answer.reply_eq (a : Answer) (kind tag : Byte) :
    a.reply kind tag = { a.state with
      link := { a.state.link with
        reply := some (replyFrame kind tag a.status a.body)
        supervisor := supervisorTime (Limits.hostTimeout a.state.tables.limits) }
      fresh := a.state.fresh + 1 } := rfl

/-! ### Steps -/

theorem step_cons (s : State) (c : Instr) (rest : List Instr) (h : s.pending = c :: rest) :
    step s = exec c { s with pending := rest } := by
  simp [step, h]

theorem step_empty (s : State) (h : s.pending = []) : step s = .next s.tick := by
  simp [step, h]

/-- Passing time changes the timers alone. -/
theorem State.tick_frame (s : State) :
    s.tick = { s with
      meas := s.tick.meas, path := s.tick.path, input := s.tick.input, hinge := s.tick.hinge
      prot := s.tick.prot, link := s.tick.link } := rfl

end Sys2Proof.Machine
end

