-- ==== Sys2Proof/Laws/Blocks.lean ====
section
/-! SUPPORT. Laws/Blocks.lean: the shared operations in the words of Safety.lean: an order to a path, the end of a transfer, the moves of the input stage, a new sequencer record and the entry evaluation. -/

namespace Sys2Proof.Machine

/-! ### Paths (R115 to R119) -/

theorem PathRecord.take_ordered (p : PathRecord) (ramp : Nat) (e : Effective) :
    (p.take ramp e).ordered = p.ordered := by
  unfold PathRecord.take
  split
  · split <;> rfl
  · rfl

theorem PathRecord.take_restriction (p : PathRecord) (ramp : Nat) (e : Effective) :
    (p.take ramp e).restriction = p.restriction := by
  unfold PathRecord.take
  split
  · split <;> rfl
  · rfl

theorem conditioned_eq (s : State) (c : Cell) (o : Order) :
    conditioned c s.inputActive s.hinge.settled (Limits.hingeCap s.tables.limits) o
      = orderConditioned s c o := by
  unfold conditioned orderConditioned hingeLimits hingeCapped State.inputActive
  cases o <;> cases c <;> cases hs : s.hinge.settled <;> simp [Limits.hingeCap, Words.at]

theorem restricted_eq (o : Order) (r : Restriction) : restricted o r = orderTable o r := by
  cases o <;> cases r <;> rfl

/-- A path that is recomputed with an order and a restriction of its own. -/
theorem take_recomputed (s : State) (c : Cell) (p old : PathRecord) (he : p.eff = old.eff)
    (hr : p.ramp = old.ramp) (ha : p.armed = old.armed) :
    Recomputed s c old (p.take (tenths (Limits.rampMs s.tables.limits))
      (restricted (conditioned c s.inputActive s.hinge.settled (Limits.hingeCap s.tables.limits)
        p.ordered) p.restriction)) := by
  unfold Recomputed
  rw [PathRecord.take_ordered, PathRecord.take_restriction, conditioned_eq, restricted_eq]
  dsimp only
  generalize orderTable (orderConditioned s c p.ordered) p.restriction = e
  unfold PathRecord.take
  by_cases h : e = .closed
  · simp only [h, if_true, he]
    split
    · exact ⟨he, hr, ha⟩
    · exact ⟨rfl, rfl, ha⟩
  · simp only [h, if_false, ha]
    simp

/-- A path that takes an order: everything that `State.orderPath` does. -/
theorem State.orderPath_took (s : State) (c : Cell) (o : Order) :
    PathTook s c o (s.path.get c).restriction s.handed (s.orderPath c o) := by
  rw [State.orderPath_eq]
  exact ⟨_, rfl, PathRecord.take_ordered .., PathRecord.take_restriction ..,
    take_recomputed s c { s.path.get c with ordered := o } _ rfl rfl rfl⟩

/-- A path whose restriction changes and that is recomputed. -/
theorem State.recompute_took (s : State) (c : Cell) (r : Restriction) :
    PathTook s c (s.path.get c).ordered r s.handed
      ((s.setPath c { s.path.get c with restriction := r }).recompute c) := by
  rw [State.recompute_eq]
  refine ⟨_, ?_, ?_, ?_, take_recomputed s c { s.path.get c with restriction := r } _ rfl rfl rfl⟩
  · cases c <;> rfl
  · exact PathRecord.take_ordered ..
  · exact PathRecord.take_restriction ..

/-! ### The end of a transfer (R106, R123) -/

theorem State.endTransferOnEvent_ended (s : State) (cause : EndCause)
    (h : s.alloc.transfer.active = true) : TransferEnded s cause (s.endTransferOnEvent cause) := by
  unfold TransferEnded State.endTransferOnEvent
  rw [if_pos h]
  dsimp only
  have hd : ∀ (x : State) (o : Option Cell), x.receiverDiode o =
      match o with
      | some c => x.orderPath c .diode
      | none => x := fun x o => by cases o <;> rfl
  rw [hd]
  split
  · rename_i hr
    simp only [hr]
    rw [State.endTransfer_eq]
    simp only [hr]
    rfl
  · rename_i c hr
    simp only [hr]
    have := State.orderPath_took ((s.endTransfer cause).setAlloc
      { (s.endTransfer cause).alloc with
        frame := (s.endTransfer cause).alloc.frame.endTransfer (some c) }) c .diode
    rw [State.endTransfer_eq] at this ⊢
    simp only [hr] at this ⊢
    exact this

/-! ### The input stage (R133 to R137, R143) -/

theorem State.moveInput_moved (s : State) (new : InputState) (h : new ≠ s.input.state) :
    InputMoved s new (s.moveInput new) := by
  rw [State.moveInput_eq s new h]
  rfl

theorem State.setReasons_took (s : State) (new : SuspendReasons) :
    ReasonsTook s new (s.setReasons new) := by
  rw [State.setReasons_eq]
  unfold ReasonsTook
  dsimp only
  split
  · rename_i h
    exact State.moveInput_moved _ _ (by simp [h.1])
  · split
    · rename_i h
      exact State.moveInput_moved _ _ (by simp [h.1])
    · rfl

/-! ### What changes hand on -/

theorem State.setFaults_handed (s : State) (new : PerFault FaultRecord) :
    FaultsHanded s (s.setFaults new) := by
  rw [State.setFaults_eq]
  unfold FaultsHanded
  simp only [List.any_eq_true, bne_iff_ne, List.mem_singleton, exists_eq_left]
  congr 1
  · split <;> split <;> simp
  · split <;> simp

/-- A promotion of a table 1..3 whose checks pass hands on what R51 says, and no other attempt hands on
anything. -/
theorem State.promote_handed (s : State) (r : RecordId) (k : Copies) (source : ProfileSource)
    (hr : (s.copiesOf r).isSome) :
    (checkOf s.factory r k.pending = 0 → PromotionHanded s r k.pending (s.promote r k source))
      ∧ (checkOf s.factory r k.pending ≠ 0 → (s.promote r k source).handed = s.handed) := by
  unfold State.promote PromotionHanded
  refine ⟨fun h => ?_, fun h => ?_⟩
  · rw [if_pos h]
    cases r <;> first
      | (exfalso; revert hr; exact (by decide : ¬ false = true))
      | (simp [Handed.promotion, PerCell.map, State.setCopies]; rfl)
  · rw [if_neg h]
    cases r <;> rfl

/-! ### Sequencers (R66, R69, R74, R79) -/

theorem State.updateSeq_took (s : State) (c : Cell) (new : SeqRecord) :
    SeqTook s c new s.handed (s.updateSeq c new) := by
  rw [State.updateSeq_eq]
  unfold SeqTook seqNotable State.noticed
  by_cases h1 : (s.seq.get c).state = new.state <;> by_cases h2 : (s.seq.get c).k = new.k <;>
    by_cases h3 : (s.seq.get c).band = new.band <;> simp [h1, h2, h3, seqPayload]

/-- Everything that a record given by an event between sets does. -/
theorem State.takeEventSeq_took (s : State) (c : Cell) (new : SeqRecord) :
    SeqTook (s.holdsStage c new) c new s.handed (s.takeEventSeq c new) := by
  unfold State.takeEventSeq
  rw [State.updateSeq_took (s.setSeenOf c _) c new]
  rfl

/-- The first stage whose end voltage lies above VC is the one that `stageAt` gives. -/
theorem Seq.stageAt_eq (e : SeqEnv) (r : SeqRecord) (k : Nat) (h1 : 1 ≤ k)
    (hn : k ≤ Profile.nstage e.prof) (hk : e.vc < Seq.vstepEff e r k)
    (hl : ∀ i, 1 ≤ i → i < k → Seq.vstepEff e r i ≤ e.vc) : Seq.stageAt e r = k := by
  have h : (Profile.stages e.prof).find? (fun k => decide (e.vc < Seq.vstepEff e r k)) = some k := by
    rw [List.find?_eq_some_iff_append]
    refine ⟨by simpa using hk, (List.range (k - 1)).map (· + 1),
      ((List.range (Profile.nstage e.prof)).drop k).map (· + 1), ?_, ?_⟩
    · unfold Profile.stages
      obtain ⟨j, rfl⟩ : ∃ j, k = j + 1 := ⟨k - 1, by omega⟩
      have hr : List.range (Profile.nstage e.prof)
          = List.range j ++ j :: (List.range (Profile.nstage e.prof)).drop (j + 1) := by
        apply List.ext_getElem
        · simp; omega
        · intro n hn1 hn2
          by_cases h3 : n < j
          · rw [List.getElem_append_left (by simpa using h3)]; simp
          · rw [List.getElem_append_right (by simpa using Nat.not_lt.mp h3)]
            by_cases h4 : n = j
            · subst h4; simp
            · obtain ⟨q, rfl⟩ : ∃ q, n = j + (q + 1) := ⟨n - j - 1, by omega⟩
              simp
              omega
      rw [hr, List.map_append, List.map_cons, Nat.add_sub_cancel]
      congr 3
      rw [← hr]
    · intro i hi
      simp only [List.mem_map, List.mem_range] at hi
      obtain ⟨j, hj, rfl⟩ := hi
      have := hl (j + 1) (by omega) (by omega)
      simp only [decide_eq_false_iff_not, Bool.not_eq_true', Int.not_lt]
      exact this
  simp [Seq.stageAt, h]

/-- Everything that an entry evaluation gives. -/
theorem Seq.entry_outcome (e : SeqEnv) (r : SeqRecord) (age : Nat) (ho : e.vcOk = usable age)
    (pre fast : Int) :
    entryOutcome ⟨e.prof, e.bands, e.vc, age⟩ e.grant r pre fast
      (Seq.entry e { r with pre := pre, fast := fast }) := by
  unfold entryOutcome
  dsimp only
  unfold Seq.entry
  rw [ho]
  unfold usable
  by_cases h1 : age ≤ 2
  · rw [if_neg (by omega)]
    simp only [h1, decide_true, Bool.not_true, Bool.false_eq_true, if_false]
    cases h2 : r.reasons.any
    · simp only [Bool.false_eq_true, if_false]
      by_cases h3 : e.vc < List.getD e.prof 2 0
      · rw [if_pos h3, if_pos (show e.vc < Profile.vpre e.prof from h3)]
        rfl
      · rw [if_neg h3, if_neg (show ¬ e.vc < Profile.vpre e.prof from h3)]
        unfold Seq.place
        by_cases h4 : e.vc < List.getD e.prof 0 0 - Bands.voff e.bands r.band
        · rw [if_pos h4, if_pos (show e.vc < Seq.vfullEff e { r with pre := pre, fast := fast } from h4)]
          refine ⟨rfl, ?_⟩
          intro k h5 h6 h7 h8
          rw [Seq.stageAt_eq e { r with pre := pre, fast := fast } k h5 h6 h7 h8]
          rfl
        · rw [if_neg h4, if_neg (show ¬ e.vc < Seq.vfullEff e { r with pre := pre, fast := fast } from h4)]
          rfl
    · simp only [if_true]
      rfl
  · rw [if_pos (by omega)]
    simp only [h1, decide_false, Bool.not_false, if_true]
    rfl

end Sys2Proof.Machine
end

