-- ==== Sys2Proof/Laws/Frames.lean ====
section
/-! SUPPORT. Laws/Frames.lean: what the longer operations leave alone: the revert, the loads, the transfer step of a frame, and a change of every set of a target. -/

namespace Sys2Proof.Machine

namespace State
variable (s : State)

/-! ### The revert (R205) -/

theorem revertHost_frame :
    s.revertHost = { s with
      input := s.revertHost.input, link := s.revertHost.link, handed := s.revertHost.handed } := by
  unfold revertHost
  rw [setReasons_frame]

theorem revertInput_frame :
    s.revertInput = { s with
      input := s.revertInput.input, link := s.revertInput.link, handed := s.revertInput.handed } := by
  unfold revertInput
  split
  · rw [revertHost_frame]
    rfl
  · rw [revertHost_frame]
    rfl

theorem revertTransfer_frame (cause : EndCause) :
    s.revertTransfer cause = { s with
      alloc := (s.revertTransfer cause).alloc
      path := (s.revertTransfer cause).path
      link := (s.revertTransfer cause).link } := by
  unfold revertTransfer
  dsimp only
  split
  · rfl
  · rw [endTransferOnEvent_frame]
    rfl

theorem revertTransferAfterGrant_frame (first : Bool) :
    s.revertTransferAfterGrant first = { s with
      alloc := (s.revertTransferAfterGrant first).alloc
      path := (s.revertTransferAfterGrant first).path
      link := (s.revertTransferAfterGrant first).link
      handed := (s.revertTransferAfterGrant first).handed } := by
  unfold revertTransferAfterGrant
  split
  · rw [revertTransfer_frame]
    rfl
  · rw [revertTransfer_frame]

theorem revertInputAndTransfer_frame :
    s.revertInputAndTransfer = { s with
      input := s.revertInputAndTransfer.input
      alloc := s.revertInputAndTransfer.alloc
      path := s.revertInputAndTransfer.path
      link := s.revertInputAndTransfer.link
      handed := s.revertInputAndTransfer.handed } := by
  unfold revertInputAndTransfer
  split
  · rw [revertTransferAfterGrant_frame, revertInput_frame]
  · rw [revertInput_frame, revertTransfer_frame]

theorem revertCeilings_frame :
    s.revertCeilings = { s with seq := s.revertCeilings.seq, link := s.revertCeilings.link } := by
  unfold revertCeilings
  rw [setCeiling_frame, setCeiling_frame s]

theorem revertInhibits_frame :
    s.revertInhibits = { s with
      inhibit := ⟨0, 0⟩
      handed := { s.handed with
        seqInhibit := s.revertInhibits.handed.seqInhibit
        transfer := s.revertInhibits.handed.transfer } } := by
  unfold revertInhibits
  rw [setInhibitSet_frame, setInhibitSet_frame s]
  rfl

/-- A revert leaves the measurement unit, the counters, the tables, the hinge monitor, protection, the store
and the queue of commands alone. -/
theorem revert_frame :
    s.revert = { s with
      input := s.revert.input, alloc := s.revert.alloc, path := s.revert.path, seq := s.revert.seq
      inhibit := ⟨0, 0⟩, link := s.revert.link, handed := s.revert.handed, fresh := s.fresh + 1 } := by
  unfold revert
  dsimp only
  rw [revertInhibits_frame, revertCeilings_frame, revertInputAndTransfer_frame]
  rfl

/-! ### Tables -/

theorem takeDefaults_frame (r : RecordId) :
    s.takeDefaults r = { s with
      tables := (s.takeDefaults r).tables
      counter := (s.takeDefaults r).counter
      path := (s.takeDefaults r).path
      prot := (s.takeDefaults r).prot
      handed := (s.takeDefaults r).handed } := by
  unfold takeDefaults
  split
  · rw [setCopies_frame]
  · rw [force_frame]

end State

/-- One record of a LOAD touches the tables and what comes into force with them alone, and the link. -/
theorem LoadOutcome.take_frame (o : LoadOutcome) (r : RecordId) :
    (o.take r).state = { o.state with
      tables := (o.take r).state.tables
      counter := (o.take r).state.counter
      path := (o.take r).state.path
      prot := (o.take r).state.prot
      link := (o.take r).state.link
      handed := (o.take r).state.handed } := by
  unfold LoadOutcome.take
  dsimp only
  split
  · split
    · dsimp only
      rw [State.promote_frame]
    · dsimp only
      unfold State.bring
      rw [State.force_frame]
  · rfl

theorem loadRecords_frame (rs : List RecordId) (o : LoadOutcome) :
    (rs.foldl LoadOutcome.take o).state = { o.state with
      tables := (rs.foldl LoadOutcome.take o).state.tables
      counter := (rs.foldl LoadOutcome.take o).state.counter
      path := (rs.foldl LoadOutcome.take o).state.path
      prot := (rs.foldl LoadOutcome.take o).state.prot
      link := (rs.foldl LoadOutcome.take o).state.link
      handed := (rs.foldl LoadOutcome.take o).state.handed } := by
  induction rs generalizing o with
  | nil => rfl
  | cons r rs ih =>
    rw [List.foldl_cons, ih, LoadOutcome.take_frame]

/-- One record of the power-on load touches the tables and what comes into force with them alone. -/
theorem LoadProgress.take_frame (p : LoadProgress) (r : RecordId) :
    (p.take r).state = { p.state with
      tables := (p.take r).state.tables
      counter := (p.take r).state.counter
      path := (p.take r).state.path
      prot := (p.take r).state.prot
      handed := (p.take r).state.handed } := by
  unfold LoadProgress.take
  dsimp only
  split
  · split
    · split
      · dsimp only
        rw [State.setCopies_frame]
      · dsimp only
        rw [State.takeDefaults_frame]
    · dsimp only
      unfold State.bring
      rw [State.force_frame]
  · dsimp only
    rw [State.takeDefaults_frame]

theorem powerOnLoad_frame (rs : List RecordId) (p : LoadProgress) :
    (rs.foldl LoadProgress.take p).state = { p.state with
      tables := (rs.foldl LoadProgress.take p).state.tables
      counter := (rs.foldl LoadProgress.take p).state.counter
      path := (rs.foldl LoadProgress.take p).state.path
      prot := (rs.foldl LoadProgress.take p).state.prot
      handed := (rs.foldl LoadProgress.take p).state.handed } := by
  induction rs generalizing p with
  | nil => rfl
  | cons r rs ih =>
    rw [List.foldl_cons, ih, LoadProgress.take_frame]

namespace State
variable (s : State)

/-! ### Frames of the allocator -/

theorem checkTransfer_frame (m : MeasSet) (delta : Int) :
    s.checkTransfer m delta = { s with
      alloc := { s.alloc with transfer := (s.checkTransfer m delta).alloc.transfer }
      link := (s.checkTransfer m delta).link } := by
  unfold checkTransfer
  split
  · split
    · rw [endTransfer_eq]
    · rfl
  · rfl

/-- A transfer step touches the transfer record and the link alone. -/
theorem transferStep_frame (m : MeasSet) (delta : Int) :
    s.transferStep m delta = { s with
      alloc := { s.alloc with transfer := (s.transferStep m delta).alloc.transfer }
      link := (s.transferStep m delta).link } := by
  unfold transferStep
  dsimp only
  split
  · rfl
  · split
    · rw [checkTransfer_frame]
      rfl
    · split <;> rfl

/-- With the input ACTIVE a transfer step counts the cooldown down alone. -/
theorem transferStep_active (m : MeasSet) (delta : Int) (h : s.inputActive = true) :
    s.transferStep m delta = s.coolDown := by
  have hc : s.coolDown.inputActive = true := h
  simp only [transferStep, hc, if_true]

theorem holdTransfer_frame :
    s.holdTransfer = { s with
      alloc := { s.alloc with transfer := s.holdTransfer.alloc.transfer }
      link := s.holdTransfer.link } := by
  unfold holdTransfer
  dsimp only
  split
  · rw [endTransfer_eq]
    rfl
  · rfl

/-- A frame touches the allocator, the link and the orders that wait alone. -/
theorem takeFrame_frame (m : MeasSet) :
    s.takeFrame m = { s with
      alloc := (s.takeFrame m).alloc
      link := (s.takeFrame m).link
      handed := s.handed.orders (s.takeFrame m).alloc.frame.order } := by
  unfold takeFrame
  dsimp only
  split
  · rw [transferStep_frame]
    rfl
  · rw [holdTransfer_frame]
    rfl

/-! ### Targets -/

/-- Something done to each cell of a target, near first. -/
theorem forEach_cases (f : Cell → State → State) (target : Byte) (cells : List Cell)
    (h : targetOf target = some cells) :
    (target = 0 ∧ s.forEach cells f = f .near s)
      ∨ (target = 1 ∧ s.forEach cells f = f .far s)
      ∨ (target = 2 ∧ s.forEach cells f = f .far (f .near s)) := by
  unfold targetOf at h
  split at h
  · rename_i ht
    simp only [Option.some.injEq] at h
    subst h
    exact Or.inl ⟨ht, rfl⟩
  · split at h
    · rename_i ht
      simp only [Option.some.injEq] at h
      subst h
      exact Or.inr (Or.inl ⟨ht, rfl⟩)
    · split at h
      · rename_i ht
        simp only [Option.some.injEq] at h
        subst h
        exact Or.inr (Or.inr ⟨ht, rfl⟩)
      · cases h

end State

end Sys2Proof.Machine
end

