-- ==== Sys2Proof/Laws/Load.lean ====
section
/-! SUPPORT. Laws/Load.lean: what a LOAD reports: the check number of each table 1..3, the loaded and the bad records, and the state as one record after the other leaves it (R195). -/

namespace Sys2Proof.Machine

/-- A mask names nothing outside lo..hi where it shares no bit with the mask of everything else. -/
theorem maskWithin_iff (m : Word) (lo hi : Nat) (v : Word)
    (hv : ∀ n, n < 16 → (v.getLsbD n = true ↔ ¬ (lo ≤ n ∧ n ≤ hi))) :
    maskWithin lo hi m = true ↔ m &&& v = 0 := by
  unfold maskWithin hasBit
  simp only [List.all_eq_true, List.mem_range, Bool.or_eq_true, Bool.not_eq_true', Bool.and_eq_true,
    decide_eq_true_eq]
  constructor
  · intro h
    apply BitVec.eq_of_getLsbD_eq
    intro i hi'
    simp only [BitVec.getLsbD_and]
    have h1 := h i hi'
    have h2 := hv i hi'
    cases a : m.getLsbD i
    · simp
    · cases b : v.getLsbD i
      · simp
      · exfalso
        rw [a] at h1
        rw [b] at h2
        rcases h1 with h1 | h1
        · cases h1
        · exact (h2.mp rfl) h1
  · intro h n hn
    have h3 : (m &&& v).getLsbD n = false := by rw [h]; simp
    rw [BitVec.getLsbD_and] at h3
    have h4 := hv n hn
    cases h1 : m.getLsbD n
    · left
      rfl
    · right
      rw [h1] at h3
      have h2 : v.getLsbD n = false := by simpa using h3
      refine Classical.byContradiction fun h5 => ?_
      rw [h4.mpr h5] at h2
      cases h2

/-- The ids of a mask are named once each. -/
theorem recordsIn_nodup (m : Word) : (recordsIn m).Nodup := by
  unfold recordsIn
  exact List.Pairwise.filter _ (by decide : RecordId.all.Nodup)

/-- A mask of one record names it. -/
theorem recordsIn_one (r : RecordId) : recordsIn (1#16 <<< r.num) = [r] := by cases r <;> rfl

/-- A write from offset 0 to a pending copy, with no word or with some (R46, R54). -/
theorem Copies.write_pending (k : Copies) (fields : List Field) (words : List Word) :
    (k.write fields 0 words).pending = k.pending.splice 0 (adjustWords fields 0 words)
      ∧ (k.write fields 0 words).active = k.active := by
  unfold Copies.write
  split
  · rename_i h
    rw [List.isEmpty_iff.mp h]
    simp [Words.splice, adjustWords]
  · exact ⟨rfl, rfl⟩

namespace LoadOutcome
variable (o : LoadOutcome) (r q : RecordId)

/-- A record of a LOAD leaves the copies of every other table 1..3 (R195). -/
theorem take_copiesOf (h : q ≠ r) : (o.take r).state.copiesOf q = o.state.copiesOf q := by
  unfold LoadOutcome.take
  dsimp only
  split
  · split
    · rename_i k hk
      dsimp only
      unfold State.promote
      dsimp only
      split <;> cases r <;> cases q <;> first | rfl | exact absurd rfl h
    · rename_i hk
      dsimp only
      unfold State.bring
      cases r
      case profileN => cases hk
      case profileF => cases hk
      case bands => cases hk
      case limits =>
        unfold State.force
        dsimp only
        rw [State.forceLimits_frame]
        cases q <;> rfl
      case protect =>
        unfold State.force
        dsimp only
        rw [State.setProtectWords_frame]
        cases q <;> rfl
      all_goals cases q <;> rfl
  · rfl

/-- A record of a LOAD leaves the check number of every other record. -/
theorem take_checkOf (h : q ≠ r) : (o.take r).checkOf q = o.checkOf q := by
  unfold LoadOutcome.take
  dsimp only
  split
  · split
    · simp [LoadOutcome.checkOf, List.find?_append, Ne.symm h]
    · rfl
  · rfl

/-- A record of a LOAD notes no attempt of another record. -/
theorem take_keys (h : q ≠ r) (hq : ∀ p ∈ o.checks, p.1 ≠ q) : ∀ p ∈ (o.take r).checks, p.1 ≠ q := by
  unfold LoadOutcome.take
  dsimp only
  split
  · split
    · intro p hp
      rcases List.mem_append.mp hp with hp | hp
      · exact hq p hp
      · rw [List.mem_singleton.mp hp]
        exact Ne.symm h
    · exact hq
  · exact hq

end LoadOutcome

/-- The check number that the attempt of one record gives from a state, 0 where none is made (R54, R195). -/
def State.checkAttempted (s : State) (q : RecordId) : Nat :=
  match s.copiesOf q with
  | some k =>
    if slotPasses q (s.store.slots.get q) then
      checkOf s.factory q
        (k.pending.splice 0 (adjustWords (s.fieldsOf q) 0 (s.store.slots.get q).words))
    else 0
  | none => 0

theorem LoadOutcome.take_checkAttempted (o : LoadOutcome) (r q : RecordId) (h : q ≠ r) :
    (o.take r).state.checkAttempted q = o.state.checkAttempted q := by
  unfold State.checkAttempted
  rw [o.take_copiesOf r q h]
  have hf := o.take_frame r
  have h1 : (o.take r).state.store = o.state.store := by rw [hf]
  have h2 : (o.take r).state.factory = o.state.factory := by rw [hf]
  rw [h1, h2]
  cases q <;> rfl

theorem LoadOutcome.take_checkOf_self (o : LoadOutcome) (q : RecordId)
    (hq : ∀ p ∈ o.checks, p.1 ≠ q) : (o.take q).checkOf q = o.state.checkAttempted q := by
  have hn : o.checks.find? (fun p => p.1 == q) = none := by simpa using hq
  by_cases hp : slotPasses q (o.state.store.slots.get q) = true
  · cases hk : o.state.copiesOf q with
    | none => simp [LoadOutcome.take, State.checkAttempted, LoadOutcome.checkOf, hp, hk, hn]
    | some k =>
      have hw := (k.write_pending (o.state.fieldsOf q) (o.state.store.slots.get q).words).1
      simp [LoadOutcome.take, State.checkAttempted, LoadOutcome.checkOf, hp, hk, hn, hw]
  · cases hk : o.state.copiesOf q <;>
      simp [LoadOutcome.take, State.checkAttempted, LoadOutcome.checkOf, hp, hk, hn]

/-- The check number that a LOAD reports for a record: that of its attempt, from the state the LOAD began in,
and 0 for one it does not name (R195). -/
theorem loadRecords_checkOf (s : State) (rs : List RecordId) (hd : rs.Nodup) (q : RecordId) :
    (s.loadRecords rs).checkOf q = if q ∈ rs then s.checkAttempted q else 0 := by
  have keep : ∀ (rs : List RecordId) (o : LoadOutcome), q ∉ rs →
      (rs.foldl LoadOutcome.take o).checkOf q = o.checkOf q := by
    intro rs
    induction rs with
    | nil => intro o _; rfl
    | cons r rs ih =>
      intro o h
      rw [List.foldl_cons, ih _ (fun hh => h (List.mem_cons_of_mem _ hh)),
        o.take_checkOf r q (fun hh => h (by simp [hh]))]
  have all : ∀ (rs : List RecordId) (o : LoadOutcome), rs.Nodup → (∀ p ∈ o.checks, p.1 ≠ q) →
      (rs.foldl LoadOutcome.take o).checkOf q = if q ∈ rs then o.state.checkAttempted q else 0 := by
    intro rs
    induction rs with
    | nil =>
      intro o _ hq
      have hn : o.checks.find? (fun p => p.1 == q) = none := by simpa using hq
      simp [LoadOutcome.checkOf, hn]
    | cons r rs ih =>
      intro o hd hq
      rw [List.foldl_cons]
      by_cases h : q = r
      · subst h
        rw [keep rs _ (List.nodup_cons.mp hd).1, o.take_checkOf_self q hq, if_pos (by simp)]
      · rw [ih _ (List.nodup_cons.mp hd).2 (o.take_keys r q h hq), o.take_checkAttempted r q h]
        simp [h]
  exact all rs ⟨s, [], [], []⟩ hd (by simp)

/-- The state, the loaded and the bad records of a LOAD, one record after the other (R195). -/
theorem loadRecords_parts (s : State) (rs : List RecordId) :
    let passes (q : RecordId) : Bool := slotPasses q (s.store.slots.get q)
    (s.loadRecords rs).state = rs.foldl (fun x q => (x.loadRecords [q]).state) s
      ∧ (s.loadRecords rs).loaded = rs.filter passes
      ∧ (s.loadRecords rs).bad = rs.filter fun q => !passes q := by
  intro passes
  have all : ∀ (rs : List RecordId) (o : LoadOutcome), o.state.store = s.store →
      (rs.foldl LoadOutcome.take o).state = rs.foldl (fun x q => (x.loadRecords [q]).state) o.state
        ∧ (rs.foldl LoadOutcome.take o).loaded = o.loaded ++ rs.filter passes
        ∧ (rs.foldl LoadOutcome.take o).bad = o.bad ++ rs.filter (fun q => !passes q) := by
    intro rs
    induction rs with
    | nil => intro o _; simp
    | cons q rs ih =>
      intro o ho
      have hst : (o.take q).state.store = s.store := by rw [o.take_frame q]; exact ho
      obtain ⟨a, b, c⟩ := ih (o.take q) hst
      rw [List.foldl_cons, a, b, c]
      have hpq : slotPasses q (o.state.store.slots.get q) = passes q := by rw [ho]
      have one : (o.state.loadRecords [q]).state = (o.take q).state := by
        simp only [State.loadRecords, List.foldl, LoadOutcome.take]
        split
        · cases o.state.copiesOf q <;> rfl
        · rfl
      refine ⟨by rw [List.foldl_cons, one], ?_, ?_⟩
      all_goals
        unfold LoadOutcome.take
        dsimp only
        rw [hpq]
        cases hh : passes q
        · simp [hh]
        · simp only [if_true]
          cases o.state.copiesOf q <;> simp [hh]
  exact all rs ⟨s, [], [], []⟩ rfl

end Sys2Proof.Machine
end

