-- ==== Sys2Proof/Laws/Replies.lean ====
section
/-! SUPPORT. Laws/Replies.lean: the lengths of the reply bodies (R212) and the sum of a reply frame (R200). -/

namespace Sys2Proof.Machine

/-! ### Pieces -/

@[simp] theorem le16_length (w : Word) : (le16 w).length = 2 := rfl
@[simp] theorem le32_length (w : BitVec 32) : (le32 w).length = 4 := rfl
@[simp] theorem w16_length (x : Int) : (w16 x).length = 2 := rfl
@[simp] theorem w32_length (x : Int) : (w32 x).length = 4 := rfl

@[simp] theorem w16Or_length (f : AbsentField) (fresh : Nat) (x : Option Int) :
    (w16Or f fresh x).length = 2 := by
  cases x <;> rfl

/-! ### Bodies -/

namespace State
variable (s : State)

theorem identifyBody_length : s.identifyBody.length = 6 := by simp [identifyBody]
theorem statusBody_length : s.statusBody.length = 27 := by simp [statusBody]
theorem measureValues_length : s.measureValues.length = 41 := by
  simp [measureValues, PerChannel.toList]
theorem measureRaw_length : s.measureRaw.length = 24 := by simp [measureRaw, PerChannel.toList]
theorem gaugeBody_length (c : Cell) : (s.gaugeBody c).length = 27 := by simp [gaugeBody]
theorem sequencerBody_length (c : Cell) : (s.sequencerBody c).length = 38 := by simp [sequencerBody]
theorem pathBody_length (c : Cell) : (s.pathBody c).length = 9 := by simp [pathBody]
theorem transferBytes_length : s.transferBytes.length = 14 := by simp [transferBytes]
theorem balanceBody_length : s.balanceBody.length = 15 := by simp [balanceBody, transferBytes_length]
theorem orderBytes_length (f : AbsentField) (o : Order) : (s.orderBytes f o).length = 3 := by
  simp [orderBytes]

theorem allocationBody_length : s.allocationBody.length = 60 := by
  unfold allocationBody
  dsimp only
  repeat rw [List.length_append]
  rw [transferBytes_length, orderBytes_length, orderBytes_length, w16Or_length]
  rfl

theorem faultSummary_length : s.faultSummary.length = 26 := by simp [faultSummary, FaultKind.all]
theorem faultHistory_length : s.faultHistory.length = 39 := by simp [faultHistory, FaultKind.all]
theorem inputBody_length : s.inputBody.length = 8 := by simp [inputBody]
theorem ceilingBody_length : s.ceilingBody.length = 4 := by simp [ceilingBody]
theorem inhibitBody_length (blocking : Byte) : (s.inhibitBody blocking).length = 3 := rfl
theorem faultClearBody_length (unchanged : Word) : (s.faultClearBody unchanged).length = 6 := rfl
theorem restartBody_length : s.restartBody.length = 20 := by simp [restartBody]
theorem seedBody_length : s.seedBody.length = 2 := rfl
theorem storeBody_length : s.storeBody.length = 7 := by unfold storeBody; split <;> rfl
theorem maskBody_length : s.maskBody.length = 3 := rfl

end State

theorem loadBody_length (loaded bad : List RecordId) (check : RecordId → Nat) :
    (loadBody loaded bad check).length = 7 := rfl

theorem readWords_length (w : Words) (offset count : Nat) : (readWords w offset count).length = 2 * count := by
  have h : ∀ l : List Nat, ((l.map fun i => w16 (w.at (offset + i))).flatten).length = 2 * l.length := by
    intro l
    induction l with
    | nil => rfl
    | cons a as ih => simp only [List.map_cons, List.flatten_cons, List.length_append, w16_length, ih,
        List.length_cons]; omega
  simp [readWords, h]

theorem Payload.bytes_length_le (p : Payload) : p.bytes.length ≤ 9 := by
  cases p <;> simp [Payload.bytes]

theorem fetchBody_length_le (q : List Entry) : (fetchBody q).length ≤ 14 := by
  cases q with
  | nil => simp [fetchBody]
  | cons e rest =>
    have h := e.payload.bytes_length_le
    simp only [fetchBody, List.length_append, List.length_cons, List.length_nil, w16_length]
    omega

/-! ### Fields that the model leaves open -/

/-- The time left shows in whole milliseconds, a part of one rounded either way. -/
theorem msLeft_bounds (f : TimerField) (fresh : Nat) (x : Nat) :
    x / 10 ≤ msLeft f fresh (some x) ∧ msLeft f fresh (some x) ≤ (x + 9) / 10 := by
  unfold msLeft
  dsimp only
  split <;> rename_i h
  · simp at h; omega
  · omega

/-- A field shows its value where it has one. -/
theorem w16Or_word (f : AbsentField) (fresh : Nat) (x : Option Int) :
    ∃ w : Word, (∀ v, x = some v → w = BitVec.ofInt 16 v) ∧ w16Or f fresh x = le16 w := by
  cases x with
  | none => exact ⟨Config.absent f fresh, by simp, rfl⟩
  | some v => exact ⟨BitVec.ofInt 16 v, by simp, rfl⟩

/-! ### Sets -/

/-- A set of numbers below 16 has the bits of its members. -/
theorem setOf_mem (ns : List Nat) (n : Nat) (hn : n < 16) :
    (setOf ns).getLsbD n = true ↔ n ∈ ns := by
  have h : ∀ (l : List Nat) (w : Word),
      (l.foldl (fun w n => w ||| bit n) w).getLsbD n = true ↔ w.getLsbD n = true ∨ n ∈ l := by
    intro l
    induction l with
    | nil => simp
    | cons a as ih =>
      intro w
      have h1 : BitVec.getLsbD 1#16 (n - a) = true ↔ n - a = 0 := by simp
      rw [List.foldl_cons, ih]
      unfold bit
      simp only [BitVec.getLsbD_or, BitVec.getLsbD_shiftLeft, Bool.or_eq_true, List.mem_cons,
        Bool.and_eq_true, decide_eq_true_eq, Bool.not_eq_true', decide_eq_false_iff_not, h1]
      constructor
      · rintro ((h | h) | h)
        · exact Or.inl h
        · exact Or.inr (Or.inl (by omega))
        · exact Or.inr (Or.inr h)
      · rintro (h | h | h)
        · exact Or.inl (Or.inl h)
        · exact Or.inl (Or.inr ⟨⟨hn, by omega⟩, by omega⟩)
        · exact Or.inr h
  have h0 := h ns 0
  simpa [setOf] using h0

/-- A set of fault kinds has the bits of the kinds with the property. -/
theorem faultSet_mem (p : FaultKind → Bool) (n : Nat) (hn : n < 16) :
    (faultSet p).getLsbD n = true ↔ ∃ k ∈ FaultKind.all, k.num = n ∧ p k = true := by
  rw [faultSet, setOf_mem _ _ hn]
  simp only [List.mem_map, List.mem_filter]
  constructor
  · rintro ⟨k, ⟨h1, h2⟩, h3⟩; exact ⟨k, h1, h3, h2⟩
  · rintro ⟨k, h1, h3, h2⟩; exact ⟨k, ⟨h1, h2⟩, h3⟩

/-! ### Frames -/

theorem byteSum_append (a b : List Byte) : byteSum (a ++ b) = byteSum a + byteSum b := by
  have h : ∀ (l : List Byte) (x y : Byte), l.foldl (· + ·) (x + y) = x + l.foldl (· + ·) y := by
    intro l
    induction l with
    | nil => intro x y; rfl
    | cons z zs ih => intro x y; simp only [List.foldl_cons, BitVec.add_assoc, ih]
  unfold byteSum
  rw [List.foldl_append]
  have := h b (a.foldl (· + ·) 0) 0
  simpa using this

/-- Bytes closed by the check byte sum to 0 (R198, R200). -/
theorem byteSum_closed (front : List Byte) : byteSum (front ++ [0 - byteSum front]) = 0 := by
  rw [byteSum_append]
  have h : byteSum [0 - byteSum front] = 0 - byteSum front := by simp [byteSum]
  rw [h, BitVec.add_comm, BitVec.sub_add_cancel]

theorem replyFrame_length (kind tag : Byte) (st : Status) (body : List Byte) :
    (replyFrame kind tag st body).length = body.length + 5 := by
  simp [replyFrame]

theorem replyFrame_sum (kind tag : Byte) (st : Status) (body : List Byte) :
    byteSum (replyFrame kind tag st body) = 0 := byteSum_closed _

end Sys2Proof.Machine
end

