-- ==== Sys2Proof/Laws/Revert.lean ====
section
/-! SUPPORT. Laws/Revert.lean: what each part of a revert does: the input stage, the transfer operation, the ceilings and the inhibit sets (R78, R110, R145, R187, R205). -/

namespace Sys2Proof.Machine.State
variable (s : State)

theorem revertResumes_iff :
    s.revertResumes = true
      ↔ s.input.state = .suspended ∧ s.input.reasons.host = true ∧ s.input.reasons.die = false := by
  unfold revertResumes SuspendReasons.any
  cases s.input.state <;> cases s.input.reasons.host <;> cases s.input.reasons.die <;> simp

theorem revertEnds_iff :
    s.revertEnds = true ↔ s.alloc.transfer.active = true ∧ s.tables.balance.getD 2 0 = 0 := by
  unfold revertEnds Balance.xferEn Words.at
  simp

/-- Taking HOST away returns the input to ACTIVE, with the notice and the grants. -/
theorem revertHost_resumes (h : s.revertResumes = true) :
    s.revertHost = { s with
      input := { s.input with
        reasons := ⟨false, false⟩, state := .active, qual := none, sd := 1000 }
      link := s.link.notify s.alloc.frame.number
        (.input .active .suspended ⟨false, false⟩ s.input.ilim 1000)
      handed := s.handed.signal .granted } := by
  have t := s.setReasons_took { s.input.reasons with host := false }
  unfold revertResumes at h
  simp at h
  obtain ⟨⟨h1, h2⟩, h3⟩ := h
  unfold ReasonsTook at t
  dsimp only at t
  rw [if_neg (by simp [h1]), if_pos ⟨h1, h2, by simp [SuspendReasons.any, h3]⟩] at t
  unfold revertHost
  rw [t, h1, h3]
  simp [Handed.signal, PerCell.map]

/-- Taking HOST away leaves the state otherwise. -/
theorem revertHost_stays (h : s.revertResumes = false) :
    s.revertHost = { s with input := { s.input with reasons := ⟨false, s.input.reasons.die⟩ } } := by
  have t := s.setReasons_took { s.input.reasons with host := false }
  unfold revertResumes at h
  unfold ReasonsTook at t
  dsimp only at t
  rw [if_neg, if_neg] at t
  · unfold revertHost
    rw [t]
  · rintro ⟨a, b, c⟩
    simp [a, b] at h
    simp [SuspendReasons.any, h] at c
  · rintro ⟨a, b, c⟩
    simp [SuspendReasons.any] at b c
    rw [b.2] at c
    cases c

/-- The input stage's part, with the ILIM that the INPUT notice shows: the old one or the new one
(log 44). -/
theorem revertInput_eq :
    let ilim := ilimField.adjust (Limits.ilimDefault s.tables.limits)
    ∃ shown, (shown = s.input.ilim ∨ shown = ilim) ∧
      s.revertInput = { s with
        input := { s.input with
          ilim := ilim
          vfloor := vfloorField.adjust (Limits.vfloorDefault s.tables.limits)
          reasons := ⟨false, s.input.reasons.die⟩
          state := if s.revertResumes then .active else s.input.state
          sd := if s.revertResumes then 1000 else s.input.sd
          qual := if s.revertResumes then none else s.input.qual }
        link :=
          if s.revertResumes then
            s.link.notify s.alloc.frame.number (.input .active .suspended ⟨false, false⟩ shown 1000)
          else s.link
        handed := if s.revertResumes then s.handed.signal .granted else s.handed } := by
  intro ilim
  unfold revertInput
  cases h : s.revertResumes
  · refine ⟨s.input.ilim, Or.inl rfl, ?_⟩
    simp only [Bool.false_and, Bool.false_eq_true, if_false]
    rw [s.revertSettings.revertHost_stays h]
    rfl
  · have hd : s.input.reasons.die = false := (s.revertResumes_iff.mp h).2.2
    cases hc : Config.hostReasonFirst s.fresh
    · refine ⟨ilim, Or.inr rfl, ?_⟩
      simp only [Bool.and_false, Bool.false_eq_true, if_false]
      rw [s.revertSettings.revertHost_resumes h]
      simp only [if_true, hd]
      rfl
    · refine ⟨s.input.ilim, Or.inl rfl, ?_⟩
      simp only [Bool.and_true, if_true]
      rw [s.revertHost_resumes h]
      simp only [hd]
      rfl

/-- The allocator's part where it ends no transfer. -/
theorem revertTransfer_stays (cause : EndCause) (h : s.revertEnds = false) :
    s.revertTransfer cause
      = { s with alloc := { s.alloc with enable := Balance.xferEn s.tables.balance } } := by
  unfold revertTransfer
  dsimp only
  split
  · rfl
  · rename_i hx
    have ha : s.alloc.transfer.active = false := by
      unfold revertEnds at h
      simpa [hx] using h
    rw [endTransferOnEvent_idle _ _ (by exact ha)]
    rfl

/-- The allocator's part where it ends the transfer in progress. -/
theorem revertTransfer_ends (cause : EndCause) (h : s.revertEnds = true) :
    TransferEnded { s with alloc := { s.alloc with enable := Balance.xferEn s.tables.balance } } cause
      (s.revertTransfer cause) := by
  unfold revertEnds at h
  simp at h
  unfold revertTransfer
  dsimp only
  rw [if_neg (by simp [h.2])]
  exact endTransferOnEvent_ended _ cause h.1

/-- The sequencers' part: both ceilings 1000, and no cell is stopped by it. -/
theorem revertCeilings_eq :
    s.revertCeilings = { s with
      seq := ⟨{ s.seq.near with ceiling := 1000 }, { s.seq.far with ceiling := 1000 }⟩ } := by
  have one : ∀ (s : State) (c : Cell), s.setCeiling 1000 c
      = { s with seq := s.seq.set c { s.seq.get c with ceiling := 1000 } } := by
    intro s c
    unfold setCeiling
    have : Seq.setCeiling (s.seqEnv c) 1000 (s.seq.get c) = { s.seq.get c with ceiling := 1000 } := by
      unfold Seq.setCeiling
      split
      · rename_i h
        rw [← h]
      · simp [Seq.ceilingMet]
    rw [this]
    unfold updateSeq seqNotable
    simp
    rfl
  unfold revertCeilings
  rw [one, one]
  rfl

/-- The inhibit sets' part: both empty, each that was not told to its sequencer. -/
theorem revertInhibits_eq :
    s.revertInhibits = { s with
      inhibit := ⟨0, 0⟩
      handed := { s.handed with
        seqInhibit :=
          ⟨s.handed.seqInhibit.near ++ (if s.inhibit.near = 0 then [] else [false]),
            s.handed.seqInhibit.far ++ (if s.inhibit.far = 0 then [] else [false])⟩ } } := by
  have one : ∀ (s : State) (c : Cell), s.setInhibitSet c 0
      = { s with
          inhibit := s.inhibit.set c 0
          handed := { s.handed with
            seqInhibit := s.handed.seqInhibit.set c
              (s.handed.seqInhibit.get c ++ (if s.inhibit.get c = 0 then [] else [false])) } } := by
    intro s c
    by_cases h : s.inhibit.get c = 0
    · have h2 : s.setInhibitSet c 0 = s := by
        have := s.setInhibitSet_same c
        rwa [h] at this
      rw [h2, if_pos h]
      have : s.inhibit.set c 0 = s.inhibit := by rw [← h]; cases c <;> rfl
      rw [this]
      cases c <;> simp [PerCell.set, PerCell.get]
    · rw [s.setInhibitSet_eq c 0 (Ne.symm h), if_neg h]
      simp [Handed.inhibitChange]
      exact h
  unfold revertInhibits
  rw [one, one]
  simp [PerCell.set, PerCell.get]
  exact ⟨rfl, rfl⟩

end Sys2Proof.Machine.State
end

