-- ==== Sys2Proof/Laws/Sequencer.lean ====
section
/-! SUPPORT. Laws/Sequencer.lean: what the steps of a set keep of a sequencer's record, and what handling a set does to the part (R59). -/

namespace Sys2Proof.Machine

/-- What step 1 of a set alone writes, and what no step writes: the band, the band temperature, coupling,
the pause reasons and the ceiling. -/
abbrev Seq.Keeps (a b : SeqRecord) : Prop :=
  b.band = a.band ∧ b.bandT = a.bandT ∧ b.coupled = a.coupled ∧ b.reasons = a.reasons
    ∧ b.ceiling = a.ceiling

namespace Seq

theorem Keeps.refl (a : SeqRecord) : Keeps a a := ⟨rfl, rfl, rfl, rfl, rfl⟩

theorem Keeps.trans {a b c : SeqRecord} (h : Keeps a b) (g : Keeps b c) : Keeps a c :=
  ⟨g.1.trans h.1, g.2.1.trans h.2.1, g.2.2.1.trans h.2.2.1, g.2.2.2.1.trans h.2.2.2.1,
    g.2.2.2.2.trans h.2.2.2.2⟩

theorem place_keeps (e : SeqEnv) (r : SeqRecord) : Keeps r (place e r) := by
  unfold place
  split <;> exact ⟨rfl, rfl, rfl, rfl, rfl⟩

theorem entry_keeps (e : SeqEnv) (r : SeqRecord) : Keeps r (entry e r) := by
  unfold entry
  split
  · exact ⟨rfl, rfl, rfl, rfl, rfl⟩
  · split
    · exact ⟨rfl, rfl, rfl, rfl, rfl⟩
    · split
      · exact ⟨rfl, rfl, rfl, rfl, rfl⟩
      · exact place_keeps e r

theorem entryReset_keeps (e : SeqEnv) (r : SeqRecord) : Keeps r (entryReset e r) :=
  entry_keeps e { r with pre := 0, fast := 0 }

theorem presence_keeps (e : SeqEnv) (r : SeqRecord) : Keeps r (presence e r) := by
  unfold presence
  split
  · exact ⟨rfl, rfl, rfl, rfl, rfl⟩
  · split
    · split
      · exact Keeps.trans (b := toIdle r) ⟨rfl, rfl, rfl, rfl, rfl⟩ (entryReset_keeps e _)
      · exact ⟨rfl, rfl, rfl, rfl, rfl⟩
    · exact Keeps.refl r

theorem afterReasons_keeps (e : SeqEnv) (old : PauseReasons) (r : SeqRecord) :
    Keeps r (afterReasons e old r) := by
  unfold afterReasons
  split
  · exact ⟨rfl, rfl, rfl, rfl, rfl⟩
  · split
    · exact entry_keeps e r
    · exact Keeps.refl r

theorem expireIfDue_keeps (e : SeqEnv) (r : SeqRecord) : Keeps r (expireIfDue e r) := by
  unfold expireIfDue
  split <;> first
    | exact ⟨rfl, rfl, rfl, rfl, rfl⟩
    | (split <;> exact ⟨rfl, rfl, rfl, rfl, rfl⟩)

theorem timerStep_keeps (e : SeqEnv) (dt : Int) (r : SeqRecord) : Keeps r (timerStep e dt r) := by
  unfold timerStep
  split
  · exact expireIfDue_keeps e { r with pre := r.pre + advance e r dt }
  · exact expireIfDue_keeps e { r with fast := r.fast + advance e r dt }
  · exact expireIfDue_keeps e { r with fast := r.fast + advance e r dt }
  all_goals exact Keeps.refl r

theorem fastStep_keeps (e : SeqEnv) (r : SeqRecord) : Keeps r (fastStep e r) := by
  unfold fastStep
  split
  · split
    · exact ⟨rfl, rfl, rfl, rfl, rfl⟩
    · split <;> exact ⟨rfl, rfl, rfl, rfl, rfl⟩
  · exact ⟨rfl, rfl, rfl, rfl, rfl⟩

theorem taperStep_keeps (e : SeqEnv) (r : SeqRecord) : Keeps r (taperStep e r).1 := by
  unfold taperStep
  split
  · split <;> exact ⟨rfl, rfl, rfl, rfl, rfl⟩
  · exact ⟨rfl, rfl, rfl, rfl, rfl⟩

theorem transition_keeps (e : SeqEnv) (r : SeqRecord) : Keeps r (transition e r).1 := by
  unfold transition
  split
  · exact ⟨rfl, rfl, rfl, rfl, rfl⟩
  · split
    · dsimp only
      split
      · exact place_keeps e r
      · exact Keeps.refl r
    · exact fastStep_keeps e r
    · exact taperStep_keeps e r
    · dsimp only
      split
      · exact entryReset_keeps e r
      · exact Keeps.refl r
    all_goals exact Keeps.refl r

theorem settleState_keeps (e : SeqEnv) (t : Option Int) (coupled : Bool) (r : SeqRecord) :
    Keeps (bandStep e t coupled r) (settleState e t coupled r) := by
  unfold settleState
  dsimp only
  split
  · exact presence_keeps e _
  · exact (presence_keeps e _).trans (afterReasons_keeps e _ _)

theorem demandStep_keeps (e : SeqEnv) (r : SeqRecord) : Keeps r (demandStep e r) :=
  ⟨rfl, rfl, rfl, rfl, rfl⟩

/-- After step 1 no step of a set writes the band, the band temperature, coupling, the pause reasons or the
ceiling. -/
theorem takeSet_keeps (e : SeqEnv) (t : Option Int) (coupled : Bool) (dt : Int) (r : SeqRecord) :
    Keeps (bandStep e t coupled r) (takeSet e t coupled dt r).1 := by
  have h := settleState_keeps e t coupled r
  unfold takeSet
  dsimp only
  split
  · split
    · exact h.trans ((timerStep_keeps e dt _).trans (demandStep_keeps e _))
    · exact h.trans ((timerStep_keeps e dt _).trans ((transition_keeps e _).trans (demandStep_keeps e _)))
  · exact h.trans (demandStep_keeps e _)

/-! ### The last grant noted (log 40) -/

/-- A step that notes the cell's grant where it leaves the cell in TAPER, and keeps the note otherwise. -/
abbrev Notes (e : SeqEnv) (a b : SeqRecord) : Prop :=
  b.lastGrant = if b.state = .taper then e.grant else a.lastGrant

/-- A step that notes the cell's grant where the cell enters TAPER on it, and keeps the note otherwise. -/
abbrev NotesEntry (e : SeqEnv) (a b : SeqRecord) : Prop :=
  b.lastGrant = if b.state = .taper ∧ a.state ≠ .taper then e.grant else a.lastGrant

theorem Notes.entry {e : SeqEnv} {a b : SeqRecord} (h : Notes e a b) (ha : a.state ≠ .taper) :
    NotesEntry e a b := by
  simp only [Notes, NotesEntry] at h ⊢
  simp [h, ha]

theorem NotesEntry.same {e : SeqEnv} {a b : SeqRecord} (h : b.lastGrant = a.lastGrant)
    (hb : b.state = .taper → a.state = .taper) : NotesEntry e a b := by
  rw [NotesEntry, h, if_neg fun hn => hn.2 (hb hn.1)]

theorem place_notes (e : SeqEnv) (r : SeqRecord) : Notes e r (place e r) := by
  unfold place
  split <;> rfl

theorem entry_notes (e : SeqEnv) (r : SeqRecord) : Notes e r (entry e r) := by
  unfold entry
  split
  · rfl
  · split
    · rfl
    · split
      · rfl
      · exact place_notes e r

theorem entryReset_notes (e : SeqEnv) (r : SeqRecord) : Notes e r (entryReset e r) :=
  entry_notes e { r with pre := 0, fast := 0 }

theorem presence_notes (e : SeqEnv) (r : SeqRecord) : NotesEntry e r (presence e r) := by
  unfold presence
  split
  · exact .same rfl fun h => nomatch h
  · split
    · rename_i ha
      split
      · exact Notes.entry (entryReset_notes e (toIdle r)) (by rw [ha.1]; decide)
      · exact .same rfl fun h => nomatch h
    · exact .same rfl id

theorem afterReasons_notes (e : SeqEnv) (old : PauseReasons) (r : SeqRecord) :
    NotesEntry e r (afterReasons e old r) := by
  unfold afterReasons
  split
  · exact .same rfl fun h => nomatch h
  · split
    · rename_i hp
      exact Notes.entry (entry_notes e r) (by rw [hp.1]; decide)
    · exact .same rfl id

theorem settleState_notes (e : SeqEnv) (t : Option Int) (coupled : Bool) (r : SeqRecord) :
    NotesEntry e r (settleState e t coupled r) := by
  have hp : NotesEntry e r (presence e (bandStep e t coupled r)) := presence_notes e (bandStep e t coupled r)
  unfold settleState
  dsimp only
  split
  · exact hp
  · rename_i hk
    have hk : (presence e (bandStep e t coupled r)).state = r.state := Decidable.of_not_not hk
    have ha := afterReasons_notes e r.reasons (presence e (bandStep e t coupled r))
    rw [NotesEntry, hk, if_neg fun h => h.2 h.1] at hp
    rwa [NotesEntry, hk, hp] at ha

theorem expireIfDue_note (e : SeqEnv) (r : SeqRecord) : (expireIfDue e r).lastGrant = r.lastGrant := by
  unfold expireIfDue
  split <;> first
    | rfl
    | (split <;> rfl)

theorem timerStep_note (e : SeqEnv) (dt : Int) (r : SeqRecord) :
    (timerStep e dt r).lastGrant = r.lastGrant := by
  unfold timerStep
  split
  · exact expireIfDue_note e { r with pre := r.pre + advance e r dt }
  · exact expireIfDue_note e { r with fast := r.fast + advance e r dt }
  · exact expireIfDue_note e { r with fast := r.fast + advance e r dt }
  all_goals rfl

/-- A state that the timer leaves in TAPER was in TAPER. -/
theorem timerStep_reach (e : SeqEnv) (dt : Int) (r : SeqRecord) (h : (timerStep e dt r).state = .taper) :
    r.state = .taper := by
  cases hs : r.state <;> simp only [timerStep, expireIfDue, hs, reduceCtorEq] at h
  all_goals first
    | rfl
    | (split at h <;> exact nomatch h)

theorem fastStep_notes (e : SeqEnv) (r : SeqRecord) (h : r.state = .fast) : Notes e r (fastStep e r) := by
  unfold fastStep
  split
  · split
    · simp [h]
    · split <;> rfl
  · simp [h]

theorem taperStep_notes (e : SeqEnv) (r : SeqRecord) : (taperStep e r).1.lastGrant = e.grant := by
  unfold taperStep
  split
  · split <;> rfl
  · rfl

/-- Step 5 notes a grant by the taper law and on entry to TAPER. -/
theorem transition_notes (e : SeqEnv) (r : SeqRecord) :
    (transition e r).1.lastGrant =
      if (transition e r).1.state = .taper ∨ (r.state = .taper ∧ ceilingMet e r = false) then e.grant
      else r.lastGrant := by
  by_cases hc : ceilingMet e r = true
  · have : transition e r = (toFull .ceiling r, false) := by unfold transition; rw [if_pos hc]
    rw [this, if_neg (by simp [toFull, hc])]
    rfl
  · by_cases ht : r.state = .taper
    · have : transition e r = taperStep e r := by unfold transition; rw [if_neg hc, ht]
      rw [this, taperStep_notes, if_pos (.inr ⟨ht, by simpa using hc⟩)]
    · have hn : Notes e r (transition e r).1 := by
        unfold transition
        rw [if_neg hc]
        split <;> rename_i hs
        · dsimp only
          split
          · exact place_notes e r
          · simp [hs]
        · exact fastStep_notes e r hs
        · exact absurd hs ht
        · dsimp only
          split
          · exact entryReset_notes e r
          · simp [hs]
        all_goals simp [hs]
      simpa [ht] using hn

/-- A set notes the cell's grant where it leaves the cell in TAPER or applies the taper law to it, and keeps
the last grant noted otherwise. -/
theorem takeSet_notes (e : SeqEnv) (t : Option Int) (coupled : Bool) (dt : Int) (r : SeqRecord) :
    let r4 := timerStep e dt (settleState e t coupled r)
    (takeSet e t coupled dt r).1.lastGrant =
      if (takeSet e t coupled dt r).1.state = .taper
          ∨ (stateKept e t coupled r = true ∧ r4.state = .taper ∧ ceilingMet e r4 = false) then e.grant
      else r.lastGrant := by
  have hs := settleState_notes e t coupled r
  have ht := timerStep_note e dt (settleState e t coupled r)
  have hr := timerStep_reach e dt (settleState e t coupled r)
  unfold takeSet
  dsimp only
  by_cases hk : stateKept e t coupled r = true
  · have hk' : (settleState e t coupled r).state = r.state := by simpa [stateKept] using hk
    rw [NotesEntry, if_neg fun h => h.2 (hk'.symm.trans h.1)] at hs
    rw [if_pos hk]
    split
    · rename_i hx
      have hx : (timerStep e dt (settleState e t coupled r)).state ≠ .taper :=
        fun h => hx (h.trans (hr h).symm)
      show (timerStep e dt (settleState e t coupled r)).lastGrant = _
      rw [if_neg, ht, hs]
      rintro (h | h)
      · exact hx h
      · exact hx h.2.1
    · have h5 := transition_notes e (timerStep e dt (settleState e t coupled r))
      rw [ht, hs] at h5
      simp only [hk, true_and]
      exact h5
  · have hk' : (settleState e t coupled r).state ≠ r.state := by simpa [stateKept] using hk
    rw [if_neg hk]
    show (settleState e t coupled r).lastGrant = _
    rw [hs]
    by_cases hz : (settleState e t coupled r).state = .taper
    · rw [if_pos ⟨hz, fun h => hk' (hz.trans h.symm)⟩, if_pos (.inl hz)]
    · rw [if_neg fun h => hz h.1, if_neg]
      rintro (h | h)
      · exact hz h
      · exact hk h.1

end Seq

/-- What a sequencer makes of a set, and whether it sends a full mark (R59, R70). -/
abbrev State.setOutcome (s : State) (c : Cell) (m : MeasSet) : SeqRecord × Bool :=
  Seq.takeSet (s.seqEnvOn c m) (bandTemp m c s.folded) (s.coupledOn c m) m.dt (s.seq.get c)

/-- Everything that SEQUENCER_SET_HANDLING does. -/
theorem sequencerSetHandling_took (s : State) (c : Cell) (m : MeasSet) (rest : List MeasSet)
    (h : s.handed.seqSet.get c = m :: rest) :
    ∃ t, exec (.sequencerSetHandling c) s = .next t ∧ t.seq.get c = (s.setOutcome c m).1
      ∧ SeqTook (s.sawSet c m) c (s.setOutcome c m).1
        { s.handed with seqSet := s.handed.seqSet.set c rest, fullMark := t.handed.fullMark } t
      ∧ t.handed.fullMark =
        if (s.setOutcome c m).2 then s.handed.fullMark.set c (s.handed.fullMark.get c + 1)
        else s.handed.fullMark := by
  simp only [exec, execSequencerSetHandling, h]
  refine ⟨_, rfl, ?_⟩
  unfold State.handleSet
  rw [show Seq.takeSet ((s.dropSeqSet c rest).seqEnvOn c m) (bandTemp m c (s.dropSeqSet c rest).folded)
    ((s.dropSeqSet c rest).coupledOn c m) m.dt ((s.dropSeqSet c rest).seq.get c) = s.setOutcome c m
    from rfl]
  dsimp only
  rw [State.updateSeq_took ((s.dropSeqSet c rest).setSeenOf c (((s.dropSeqSet c rest).seen.get c).onSet c m)) c
    (s.setOutcome c m).1]
  cases (s.setOutcome c m).2
  · simp only [Bool.false_eq_true, if_false]
    exact ⟨by simp, rfl, rfl⟩
  · simp only [if_true]
    exact ⟨by simp, rfl, rfl⟩

/-- A charging cell with VC usable and at 1500 mV or above, and with no pause reason after step 1, passes
steps 2 and 3 unchanged. -/
theorem settleState_charging (s : State) (c : Cell) (m : MeasSet) (hv : m.vcOk c = true)
    (hp : 1500 ≤ m.vc c) (hr : (s.afterBand c m).reasons.any = false)
    (hc : (s.seq.get c).state.charging = true) :
    Seq.settleState (s.seqEnvOn c m) (bandTemp m c s.folded) (s.coupledOn c m) (s.seq.get c)
        = s.afterBand c m
      ∧ Seq.stateKept (s.seqEnvOn c m) (bandTemp m c s.folded) (s.coupledOn c m) (s.seq.get c)
        = true := by
  have hs : (s.afterBand c m).state = (s.seq.get c).state := rfl
  have hpres : Seq.presence (s.seqEnvOn c m) (s.afterBand c m) = s.afterBand c m := by
    unfold Seq.presence
    rw [if_neg, if_neg]
    · rw [hs]
      intro h
      rw [h.1] at hc
      exact absurd hc (by decide)
    · simp [State.seqEnvOn, hv]
      omega
  have hsettle : Seq.settleState (s.seqEnvOn c m) (bandTemp m c s.folded) (s.coupledOn c m) (s.seq.get c)
      = s.afterBand c m := by
    unfold Seq.settleState
    dsimp only
    rw [show Seq.bandStep (s.seqEnvOn c m) (bandTemp m c s.folded) (s.coupledOn c m) (s.seq.get c)
      = s.afterBand c m from rfl, hpres, if_neg (by simp)]
    unfold Seq.afterReasons
    rw [if_neg (by simp [hr]), if_neg]
    rw [hs]
    intro h
    rw [h.1] at hc
    exact absurd hc (by decide)
  refine ⟨hsettle, ?_⟩
  unfold Seq.stateKept
  rw [hsettle, hs]
  simp

end Sys2Proof.Machine
end

