-- ==== Sys2Proof/Tests/Slice0.lean ====
section
/-! SUPPORT. Tests/Slice0.lean: checks on small values (the WellFormed smoke, frames of R212, worked cases of the chapters), and for each statement with hypotheses a state and operands that meet them all. -/

namespace Sys2Proof.Tests

open Sys2Proof Sys2Proof.Machine

/-! ### Helpers -/

/-- The state a command gives, or the state itself. -/
def after (c : Instr) (s : State) : State :=
  match exec c s with
  | .next t => t
  | .fault _ => s
  | .refused _ => s

/-- The power-on load made, from reset. -/
def loaded : State := after .powerOnLoad State.reset

/-- The part open for requests. -/
def opened : State := after .powerOnLoadCompletion loaded

/-- A valid conversion. -/
def conv (x : Int) : Conversion := ⟨BitVec.ofInt 16 x, false⟩

/-- A set in which every channel is fresh. -/
def quiet : MeasSet where
  dt := 100
  value := ⟨9000, 500, 4100, 1800, 4080, 1300, 3950, 0, 3950, 300, 300, 400⟩
  age := PerChannel.all 0
  rflex := 50
  flexValid := true

/-- The settled, folded hinge. -/
def closedHinge : Hinge := ⟨⟨true, true, none⟩, ⟨false, false, none⟩, true, none, none, 0⟩

/-- The settled, open hinge. -/
def openHinge : Hinge := ⟨⟨false, false, none⟩, ⟨true, true, none⟩, true, none, none, 0⟩

/-- The input in a state, with its levels as that state has them. -/
def inputIn (st : InputState) (reasons : SuspendReasons) : InputStage :=
  { opened.input with
    state := st
    present := ⟨st != .detached, st != .detached, none⟩
    ov := ⟨st == .blocked, st == .blocked, none⟩
    qual := if st = .qualifying then some 0 else none
    reasons := reasons
    ilim := 2000 }

/-- The part with an ACTIVE input and the hinge open and settled. -/
def charging : State := { opened with input := inputIn .active ⟨false, false⟩, hinge := openHinge }

/-- A sequencer record in a state, in band 4, with no pause reason. -/
def seqIn (st : SeqState) (k : Nat) : SeqRecord :=
  { powerOnSeq false with state := st, k := k, band := 4, reasons := ⟨false, false, false⟩ }

/-- The part with a sequencer record in place and a set waiting for that sequencer. -/
def withSeq (s : State) (c : Cell) (r : SeqRecord) (m : MeasSet) : State :=
  { s with
    seq := s.seq.set c r
    handed := { s.handed with seqSet := s.handed.seqSet.set c [m] } }

/-- A set with a voltage and a temperature of the far cell. -/
def farSet (vcf tf : Int) : MeasSet :=
  { quiet with value := { quiet.value with vcf := vcf, tf := tf } }

/-- The part with a grant of the last frame on the far cell. -/
def granted (s : State) (far : Int) : State :=
  { s with alloc := { s.alloc with frame := { s.alloc.frame with grant := ⟨0, far⟩ } } }

/-- The part with a counter record of the near cell and a set waiting for that counter. -/
def withCounter (r : CounterRecord) (m : MeasSet) : State :=
  { opened with
    counter := opened.counter.set .near r
    handed := { opened.handed with counterSet := ⟨[m], []⟩ } }

/-- A near counter record with a capacity of 2400 mAh. -/
def nearCounter (q residue : Int) : CounterRecord :=
  { powerOnCounter 2400 with q := q, residue := residue, seed := .none }

/-- A set with a current of the near cell. -/
def nearSet (dt : Nat) (vcn icn : Int) : MeasSet :=
  { quiet with dt := dt, value := { quiet.value with vcn := vcn, icn := icn } }

/-- The part with a waiting allocation frame. -/
def withFrame (s : State) (m : MeasSet) : State :=
  { s with handed := { s.handed with allocSet := [m] } }

/-! ### WellFormed refuses ill-formed terms -/

theorem test_wf_saturated_code :
    Instr.wf (.roundCompletion (PerChannel.all ⟨5, true⟩)) = false
      ∧ Instr.wf (.roundCompletion (PerChannel.all ⟨0x8000, true⟩)) = true := by decide

theorem test_wf_bad_frame :
    Instr.wf (.badRequestFrame []) = false
      ∧ Instr.wf (.badRequestFrame [0x02, 0x11, 0x00, 0xED]) = false
      ∧ Instr.wf (.badRequestFrame [0x02, 0x11, 0x00, 0xEE]) = true := by decide

theorem test_wf_unknown_request :
    Instr.wf (.unknownRequest 0x02 0 []) = false
      ∧ Instr.wf (.unknownRequest 0x7F 0 (List.replicate 61 0)) = false
      ∧ Instr.wf (.unknownRequest 0x7F 0 []) = true := by decide

theorem test_wf_length_error :
    Instr.wf (.lengthError 0x02 0 []) = false ∧ Instr.wf (.lengthError 0x7F 0 [1]) = false
      ∧ Instr.wf (.lengthError 0x02 0 (List.replicate 61 0)) = false
      ∧ Instr.wf (.lengthError 0x02 0 [1]) = true := by decide

theorem test_wf_functions_of_other_rows :
    (∀ f ∈ [1, 2], Instr.wf (.inputSuspendRead 0 f) = false)
      ∧ (∀ f ∈ [0, 1, 2, 4], Instr.wf (.inhibitTest 0 f 0 0) = false)
      ∧ (∀ f ∈ [1, 2, 3], Instr.wf (.balanceRead 0 f) = false)
      ∧ Instr.wf (.noticeMaskRead 0 1 0) = false := by decide

theorem test_wf_table_write :
    Instr.wf (.tableWrite 0 1 0 1 []) = false ∧ Instr.wf (.tableWriteFinal 0 1 0 0 []) = false
      ∧ Instr.wf (.tableWrite 0 1 0 0 (List.replicate 29 0)) = false
      ∧ Instr.wf (.tableWriteFinal 0 1 0 1 (List.replicate 29 0)) = false
      ∧ Instr.wf (.tableWrite 0 1 0 0 (List.replicate 28 0)) = true := by decide

/-! ### Frames of R198, R200 and R212 -/

theorem test_decode_status : decodeWrite [0x02, 0x11, 0x00, 0xED] = .status 0x11 := by decide

theorem test_decode_ceiling :
    decodeWrite [0x12, 0x01, 0x03, 0x02, 0x20, 0x03, 0xC5] = .ceiling 1 2 800 := by decide

theorem test_decode_table_write :
    decodeWrite [0x21, 0x05, 0x08, 0x01, 0x00, 0x01, 0x02, 0x34, 0x12, 0x78, 0x56, 0xBA]
      = .tableWriteFinal 5 1 0 1 [0x1234, 0x5678] := by decide

theorem test_decode_errors :
    decodeWrite [] = .emptyWrite ∧ decodeWrite [0x02] = .badRequestFrame [0x02]
      ∧ decodeWrite [0x7F, 0x00, 0x00, 0x81] = .unknownRequest 0x7F 0 []
      ∧ decodeWrite [0x02, 0x00, 0x01, 0x00, 0xFD] = .lengthError 0x02 0 [0] := by decide

theorem test_encode_notice_fetch :
    encode (.noticeFetch 0x13) = some [0x30, 0x13, 0x00, 0xBD] := by decide

theorem test_decode_table_word : decodeTableWord 16 0 = none := by decide

/-! ### Power-on -/

theorem test_powerOnReset_keeps_slots_and_raw_levels :
    (after .powerOnReset charging).phase = .reset
      ∧ (after .powerOnReset charging).store.slots = charging.store.slots
      ∧ (after .powerOnReset charging).input.present = ⟨true, false, none⟩ := by decide

theorem test_powerOnLoad_defaults_every_erased_record : loaded.store.defaulted = 0x01FE := by decide

theorem test_powerOnLoadCompletion_opens_the_link :
    opened.link.queue = [⟨.powerup .powerOn, 1, 0⟩, ⟨.defaulted 0x01FE, 1, 0⟩]
      ∧ opened.meas.roundTimer = some 1000 ∧ opened.hinge.startup = some 80 := by decide

theorem test_emptyQueue_counts_down :
    (match step opened with
      | .next t => t.meas.roundTimer
      | .fault _ => none
      | .refused _ => none) = some 999 := by decide

/-! ### Measurement (worked calibrations, the worked flex estimate) -/

/-- The part with the round timer run out. -/
def roundDue : State := { opened with meas := { opened.meas with roundTimer := some 0 } }

theorem test_roundTimerExpiry_starts_a_round :
    (after .roundTimerExpiry roundDue).meas.inFlight = some 100
      ∧ after .roundTimerExpiry opened = opened := by decide

/-- The part with a calibration triple for VCN and a round in flight. -/
def calibrated : State :=
  { opened with
    meas := { opened.meas with inFlight := some 100 }
    tables := { opened.tables with
      cal := List.replicate 12 0 ++ [-6, 1, -3, 3, 0, 1] ++ List.replicate 18 0 } }

theorem test_roundCompletion_calibrates :
    let t := after (.roundCompletion { PerChannel.all (conv 0) with vcn := conv 4187, icn := conv (-503) })
      calibrated
    t.meas.chan.vcn = ⟨4187, 4252, 0⟩ ∧ t.meas.chan.icn = ⟨-503, -501, 0⟩
      ∧ t.handed.protSet.length = 1 := by decide

theorem test_roundCompletion_flex_sample :
    let t := after (.roundCompletion
      { PerChannel.all (conv 0) with vfn := conv 4120, vcf := conv 4050, icf := conv 1400 }) calibrated
    t.meas.rflex = 50 ∧ t.meas.flexValid = true := by decide

/-! ### Counters (the worked counting, seeding and learning cases) -/

theorem test_counterSetSteps_integrates :
    let t := after (.counterSetSteps .near)
      (withCounter (nearCounter 1008036 2400) (nearSet 100 3800 (-1750)))
    t.counter.near.q = 1007989 ∧ t.counter.near.residue = -3400 ∧ t.counter.near.soc = 419 := by decide

/-- A POWER-ON seed that waits, VC being unusable, leaves the set to be integrated (log 47). -/
theorem test_powerOnSeed_waits :
    let m := nearSet 100 3800 3600
    let t := after (.counterSetSteps .near)
      (withCounter { nearCounter 0 0 with seed := .powerOn } { m with age := { m.age with vcn := 3 } })
    t.counter.near.q = 100 ∧ t.counter.near.seed = .powerOn := by decide

theorem test_counterSetSteps_seeds :
    let t := after (.counterSetSteps .near)
      (withCounter { nearCounter 0 0 with seed := .requested } (nearSet 100 3812 (-60)))
    t.counter.near.q = 1240800 ∧ t.counter.near.note = some ⟨3812, 517, false⟩ := by decide

/-- The part with a full mark waiting for the near counter, whose cycle has reached A. -/
def marked (a : Int) (learning : Learning) : State :=
  { opened with
    counter := opened.counter.set .near
      { powerOnCounter 2450 with a := a, learning := learning, seed := .none }
    handed := { opened.handed with fullMark := ⟨1, 0⟩ } }

theorem test_fullMark_accepts :
    let t := after (.fullMark .near) (marked 2512345 .tracking)
    t.counter.near.cap = 2512 ∧ t.counter.near.q = 2512000
      ∧ t.link.queue.getLast? = some ⟨.learn .near true 2512 2512, 1, 0⟩ := by decide

theorem test_fullMark_rejects :
    let t := after (.fullMark .near) (marked 2730400 .tracking)
    t.counter.near.cap = 2450
      ∧ t.link.queue.getLast? = some ⟨.learn .near false 2730 2450, 1, 0⟩ := by decide

/-! ### Sequencers (the worked charge sequence, and pause, promotion and restart) -/

theorem test_sequencerSetHandling_changes_band_and_demand :
    let t := after (.sequencerSetHandling .far)
      (withSeq charging .far { seqIn .fast 2 with fast := 1500300 } (farSet 4020 470))
    t.seq.far.band = 5 ∧ t.seq.far.demand = 1000 ∧ t.seq.far.fast = 1500350 := by decide

theorem test_sequencerSetHandling_terminates :
    let t := after (.sequencerSetHandling .far)
      (withSeq (granted charging 100) .far { seqIn .taper 0 with band := 5, term := 2 } (farSet 4251 470))
    t.seq.far.state = .full ∧ t.seq.far.full = .taper ∧ t.handed.fullMark.far = 1 := by decide

/-- The near cell one set short of its precharge limit. -/
def nearlyExpired : State :=
  withSeq charging .near { seqIn .precharge 0 with pre := 1799950 } (nearSet 100 2950 100)

theorem test_safetyTimerExpiry_expires :
    let t := after (.safetyTimerExpiry .near) nearlyExpired
    t.seq.near.state = .expired ∧ t.seq.near.pre = 1800000 ∧ t.handed.seqSet.near = [] := by decide

/-- The part with both sequencers having seen VC at 4080 mV, as it stands. -/
def atVc4080 : State :=
  { charging with
    meas := { charging.meas with chan := PerChannel.all ⟨4080, 4080, 0⟩ }
    seen := charging.seen.map fun v => { v with vc := 4080, age := 0 } }

/-- The part with a signal of the input stage waiting everywhere. -/
def signalled (x : InputSignal) : State :=
  { atVc4080 with
    seq := ⟨seqIn .idle 0, seqIn .fast 2⟩
    handed := { charging.handed with
      seqSignal := ⟨[x], [x]⟩, pathSignal := ⟨[x], [x]⟩, allocSignal := [x] } }

theorem test_seqInputGranted_enters :
    (after (.seqInputGranted .near) (signalled .granted)).seq.near.state = .fast
      ∧ (after (.seqInputGranted .near) (signalled .granted)).seq.near.k = 2 := by decide

theorem test_seqInputWithdrawn_idles :
    (after (.seqInputWithdrawn .far) (signalled .withdrawn)).seq.far.state = .idle := by decide

/-- The near profile with FAST_LIMIT 180 min. -/
def shortProfile : Words := (defaultProfile 4480 4000).take 17 ++ [180]

/-- The near cell of the worked pause, in FAST at stage 2. -/
def fastTwo : State :=
  { atVc4080 with
    seq := ⟨{ seqIn .fast 2 with fast := 12000000, demand := 2000 }, seqIn .idle 0⟩
    handed := { charging.handed with seqInhibit := ⟨[true], []⟩, seqFault := ⟨[.blockAll], []⟩ } }

/-- A promotion waiting for the near sequencer, its copy being active. -/
def promoting (s : State) (which : Promoted) : State :=
  { s with
    tables := match which with
      | .profile w => { s.tables with profile := ⟨cleanCopies w, s.tables.profile.far⟩ }
      | .bands w => { s.tables with bands := cleanCopies w }
    handed := { s.handed with seqPromotion := ⟨[which], []⟩ } }

/-- A near profile with all five stages in use. -/
def fiveStages : Words :=
  [4400, 100, 3000, 150, 100, 5, 1000, 1000, 1000, 1000, 1000, 3900, 3950, 4000, 4050, 4400, 30, 300]

/-- VC of the latest set at 2950 mV, the sequencers having handled the one at 4080 mV. -/
def sagged (s : State) : State :=
  { s with meas := { s.meas with chan := PerChannel.all ⟨2950, 2950, 0⟩ } }

/-- A grant reads the VC that the set handled last left; a resume and a restart read the channel record
(R8, R66, R75). -/
theorem test_vc_of_an_event :
    let paused : State := { fastTwo with
      seq := ⟨{ seqIn .paused 0 with reasons := ⟨true, false, false⟩ }, seqIn .idle 0⟩
      handed := { fastTwo.handed with seqInhibit := ⟨[false], []⟩ } }
    (after (.seqInputGranted .near) (sagged (signalled .granted))).seq.near.state = .fast
      ∧ (after (.seqInhibitEvent .near) (sagged paused)).seq.near.state = .precharge
      ∧ (after (.chargeRestart 0 0) (sagged fastTwo)).seq.near.state = .precharge := by decide

/-- A restart before the promotion event reads the active profile; its stage 5 is one that the old copy does
not use (R41, R58). -/
theorem test_restart_reads_the_active_profile :
    let s := promoting fastTwo (.profile fiveStages)
    let t := after (.chargeRestart 0 0) s
    s.seen.near.prof ≠ fiveStages ∧ t.seq.near.k = 5 ∧ t.seq.near.demand = 1000
      ∧ t.seen.near.prof = fiveStages := by decide

theorem test_seqInhibitEvent_pauses :
    let r := (after (.seqInhibitEvent .near) fastTwo).seq.near
    r.state = .paused ∧ r.fast = 12000000 ∧ r.demand = 0 := by decide

theorem test_seqFaultReasonUpdate_pauses :
    (after (.seqFaultReasonUpdate .near) fastTwo).seq.near.reasons = ⟨false, false, true⟩ := by decide

/-- The worked promotion: PAUSED with 200 min elapsed. -/
def promoted : State :=
  promoting { fastTwo with
    seq := ⟨{ seqIn .paused 0 with fast := 12000000, reasons := ⟨true, false, false⟩ }, seqIn .idle 0⟩ }
    (.profile shortProfile)

theorem test_seqPromotion_expires :
    let r := (after (.seqPromotion .near) promoted).seq.near
    r.state = .expired ∧ r.fast = 10800000 := by decide

/-- A set that is taken before a promotion is handled against the old copy (R51). -/
theorem test_seqPromotion_waits_behind_a_set :
    let s := withSeq promoted .near { seqIn .fast 2 with fast := 12000000 } quiet
    let t := after (.sequencerSetHandling .near) s
    t.seq.near.state = .fast ∧ (after (.seqPromotion .near) t).seq.near.state = .expired := by decide

/-! ### Protection (the worked overvoltage) -/

/-- The part with a set waiting for protection. -/
def withProtSet (s : State) (m : MeasSet) : State :=
  { s with handed := { s.handed with protSet := [m] } }

theorem test_protectionSetReaction_latches :
    let t := after .protectionSetReaction (withProtSet charging (nearSet 100 4562 100))
    t.prot.record.nOv = ⟨true, true, true, 1, 0⟩ ∧ t.handed.pathBlocks = ⟨[⟨true, false, false⟩], []⟩
      ∧ t.link.queue.getLast? = some ⟨.fault 1, 1, 0⟩ := by decide

/-- The part after a far trip at 5800 mA. -/
def tripped : State := after (.overcurrentTrip .far (-5800)) charging

theorem test_overcurrentTrip_blocks :
    tripped.path.far.armed = false ∧ tripped.prot.retry.far = some 10000
      ∧ tripped.handed.pathBlocks.far = [⟨false, false, true⟩] := by decide

theorem test_tripRearm_arms :
    (after (.tripRearm .far 5500) tripped).path.far.armed = true
      ∧ (after (.tripRearm .far 5501) tripped).path.far.armed = false := by decide

/-- The trip with its retry timer run out. -/
def retrying : State := { tripped with prot := { tripped.prot with retry := ⟨none, some 0⟩ } }

theorem test_retryTimerExpiry_keeps_a_latch :
    (after (.retryTimerExpiry .far) retrying).prot.record.fOc = ⟨false, true, true, 1, 0⟩
      ∧ after (.retryTimerExpiry .far) tripped = tripped := by decide

theorem test_faultClear_keeps_the_count :
    (after (.faultClear 0 0x0020) (after (.retryTimerExpiry .far) retrying)).prot.record.fOc
      = ⟨false, false, false, 1, 0⟩ := by decide

/-! ### Allocator (the worked allocation, discharge and transfer cases) -/

/-- Case 1 of the worked allocations. -/
def caseOne : State :=
  { charging with
    counter := ⟨{ powerOnCounter 2000 with q := 840000 }, { powerOnCounter 2000 with q := 1120000 }⟩
    seq := ⟨{ seqIn .fast 2 with demand := 2000 }, { seqIn .fast 1 with demand := 1500 }⟩ }

theorem test_allocationFrame_splits :
    let t := after .allocationFrame (withFrame caseOne quiet)
    t.alloc.frame.grant = ⟨1300, 725⟩ ∧ t.alloc.frame.mode = .charge ∧ t.alloc.frame.capOut = 3951
      ∧ t.handed.pathOrder = ⟨[.regulate 1300], [.regulate 725]⟩ := by decide

/-- The folded phone of the worked transfer at frame 999. -/
def folded : State :=
  { opened with
    hinge := closedHinge
    counter := ⟨{ powerOnCounter 2000 with q := 1220000 }, { powerOnCounter 2000 with q := 960000 }⟩
    seq := ⟨seqIn .idle 0, seqIn .idle 0⟩ }

/-- A set on battery with a light load. -/
def batterySet : MeasSet :=
  { quiet with value := { quiet.value with vbus := 0, iload := 180, vcn := 3950, vcf := 3830 } }

/-- The worked transfer under way. -/
def transferring : State := after .allocationFrame (withFrame folded batterySet)

theorem test_allocationFrame_starts_a_transfer :
    transferring.alloc.transfer
        = ⟨true, some .near, some .far, 300, 0, 0, folded.alloc.transfer.lastEnd, 0⟩
      ∧ transferring.alloc.frame.mode = .transfer
      ∧ transferring.handed.pathOrder = ⟨[.diode], [.regulate 300]⟩ := by decide

/-- The transfer with an event waiting to end it. -/
def interrupted (e : TransferEvent) : State :=
  { transferring with handed := { transferring.handed with
      transfer := if e = .inputGranted then [] else [e]
      allocSignal := if e = .inputGranted then [.granted, .withdrawn] else [] } }

theorem test_transferEventEnd_ends :
    let t := after (.transferEventEnd .hingeUnsettled) (interrupted .hingeUnsettled)
    t.alloc.transfer.active = false ∧ t.alloc.transfer.lastEnd = .hinge
      ∧ t.alloc.transfer.cooldown = 300 ∧ t.path.far.ordered = .diode
      ∧ t.alloc.frame.order = ⟨.diode, .diode⟩ := by decide

theorem test_transferEventEnd_inhibit_of_the_donor :
    (after (.transferEventEnd (.inhibit .near)) (interrupted (.inhibit .near))).alloc.transfer.active
      = true := by decide

theorem test_grants_cleared_and_capped :
    let s : State := { granted charging 725 with
      handed := { charging.handed with allocSignal := [.withdrawn], grantHinge := 1 } }
    (after .grantsClearedOnWithdrawal s).alloc.frame.grant = ⟨0, 0⟩
      ∧ after .grantsClearedOnWithdrawal (interrupted .inputGranted) = interrupted .inputGranted
      ∧ (after .grantsClearedOnWithdrawal { s with handed := { s.handed with
          allocSignal := [.granted, .withdrawn] } }).alloc.frame.grant = ⟨0, 0⟩
      ∧ (after .farGrantHingeCap s).alloc.frame.grant = ⟨0, 500⟩ := by decide

/-! ### Cell paths (the worked sequences) -/

/-- The part with an order waiting for the far path. -/
def ordered (s : State) (o : Order) : State :=
  { s with handed := { s.handed with pathOrder := ⟨[], [o]⟩ } }

/-- The far path in RAMP on battery. -/
def ramping : State := after (.pathOrderDelivery .far) (ordered { folded with hinge := openHinge } .closed)

theorem test_pathOrderDelivery_ramps :
    ramping.path.far.eff = .ramp ∧ ramping.path.far.ramp = some 200 := by decide

/-- The far path with its ramp timer run out. -/
def ramped : State := { ramping with path := ⟨ramping.path.near, { ramping.path.far with ramp := some 0 }⟩ }

theorem test_rampTimerExpiry_closes :
    (after (.rampTimerExpiry .far) ramped).path.far.eff = .closed
      ∧ after (.rampTimerExpiry .far) ramping = ramping := by decide

/-- The far path under an order, with blocks waiting for it. -/
def blocked (b : Blocks) : State :=
  { ramping with handed := { ramping.handed with pathBlocks := ⟨[], [b]⟩ } }

theorem test_pathRestrictionChange_opens :
    let t := after (.pathRestrictionChange .far) (blocked ⟨false, true, false⟩)
    t.path.far.eff = .openPath ∧ t.path.far.restriction = .blockDischarge
      ∧ t.handed.seqFault.far = [.blockDischarge] ∧ t.handed.transfer = [.restriction .far] := by decide

theorem test_pathInputGranted_demotes :
    (after (.pathInputGranted .far) { signalled .granted with path := ramping.path }).path.far
      = ⟨.diode, .none, .diode, none, true⟩ := by decide

/-- The far path regulating, with a withdrawal and a hinge event waiting. -/
def regulating : State :=
  { charging with
    path := ⟨powerOnPath, ⟨.regulate 725, .none, .regulate 725, none, true⟩⟩
    hinge := { openHinge with settled := false }
    handed := { charging.handed with pathSignal := ⟨[], [.withdrawn]⟩, pathHinge := 1 } }

/-- The far path held to HINGE_CAP while the hinge was unsettled, an order of the same value waiting after it
has settled. -/
def capOutlived (o : Order) : State :=
  ordered { charging with
    path := ⟨powerOnPath, ⟨.regulate 725, .none, .regulate 500, none, true⟩⟩ } o

theorem test_sameOrder_ends_the_cap :
    (after (.pathOrderDelivery .far) (capOutlived (.regulate 725))).path.far.eff = .regulate 725
      ∧ (after (.pathOrderDelivery .far) { capOutlived (.regulate 725) with
          hinge := { openHinge with settled := false } }).path.far.eff = .regulate 500 := by decide

/-- The same CLOSED order leaves the far path CLOSED until it takes the grant that waits (R113, R120). -/
theorem test_sameOrder_keeps_closed :
    let s := ordered { charging with path := ⟨powerOnPath, ⟨.closed, .none, .closed, none, true⟩⟩ } .closed
    s.input.state = .active ∧ (after (.pathOrderDelivery .far) s).path = s.path := by decide

theorem test_pathInputWithdrawn_demotes :
    (after (.pathInputWithdrawn .far) regulating).path.far.ordered = .diode := by decide

theorem test_pathHingeUnsettled_caps :
    (after .pathHingeUnsettled regulating).path.far.eff = .regulate 500 := by decide

/-! ### Input stage -/

theorem test_comparatorRawChange_hysteresis :
    (after (.comparatorRawChange 4300) opened).input.present = ⟨true, false, some 20⟩
      ∧ (after (.comparatorRawChange 4299) opened).input.present = ⟨false, false, none⟩
      ∧ (after (.comparatorRawChange 14000) opened).input.ov = ⟨false, false, none⟩
      ∧ (after (.comparatorRawChange 14001) opened).input.ov = ⟨true, false, some 20⟩ := by decide

/-- An adapter attached, its filter running. -/
def attaching : State := after (.comparatorRawChange 5000) opened

/-- An adapter attached, its filter run out. -/
def attached : State :=
  { attaching with input := { attaching.input with present := ⟨true, false, some 0⟩ } }

theorem test_attachFilterExpiry_qualifies :
    let t := after (.attachFilterExpiry .present) attached
    t.input.state = .qualifying ∧ t.input.qual = some 1500
      ∧ after (.attachFilterExpiry .present) attaching = attaching := by decide

theorem test_qualificationExpiry_grants :
    let t := after .qualificationExpiry { opened with input := inputIn .qualifying ⟨false, false⟩ }
    t.input.state = .active ∧ t.handed.seqSignal = ⟨[.granted], [.granted]⟩ := by decide

theorem test_dieSuspendReasonChange_suspends :
    let t := after .dieSuspendReasonChange { charging with handed := { charging.handed with die := [true] } }
    t.input.state = .suspended ∧ t.handed.allocSignal = [.withdrawn] := by decide

/-- The part with a set waiting for the input stage. -/
def withInputSet (s : State) (vbus : Int) : State :=
  { s with handed := { s.handed with
      inputSet := [{ quiet with value := { quiet.value with vbus := vbus } }] } }

theorem test_inputSagDerateStep_derates :
    (after .inputSagDerateStep (withInputSet charging 4480)).input.sd = 900
      ∧ (after .inputSagDerateStep (withInputSet charging 4500)).input.sd = 1000 := by decide

theorem test_inputLimit_clamps :
    let t := after (.inputLimit 7 1510 4620) opened
    t.input.ilim = 1500 ∧ t.input.vfloor = 4600
      ∧ t.link.reply.map (·.take 3) = some [0x10, 7, 0x01] := by decide

theorem test_inputSuspend_suspends_and_resumes :
    let t := after (.inputSuspendSuspend 1) charging
    t.input.state = .suspended ∧ (after (.inputSuspendResume 2) t).input.state = .active
      ∧ (after (.inputSuspendRead 3 0) t).input = t.input := by decide

/-! ### Hinge monitor -/

theorem test_foldRawChange_starts_the_filter :
    (after (.foldRawChange .foldB false) { opened with hinge := openHinge }).hinge.foldB
      = ⟨false, true, some 80⟩ := by decide

/-- The hinge leaving its stop, its filter run out. -/
def leaving : State :=
  { opened with hinge := { openHinge with foldB := ⟨false, true, some 0⟩ } }

theorem test_hingeFilterExpiry_unsettles :
    let t := after (.hingeFilterExpiry .foldB) leaving
    t.hinge.position = .moving ∧ t.hinge.settled = false ∧ t.handed.pathHinge = 1 := by decide

/-- The start-up sample with FOLD-A active. -/
def starting : State :=
  let s := after (.foldRawChange .foldA true) opened
  { s with hinge := { s.hinge with startup := some 0 } }

/-- The hinge at its stop, its settle timer run out. -/
def settling : State :=
  let s := after .startupSampleExpiry starting
  { s with hinge := { s.hinge with settle := some 0 } }

theorem test_startupSampleExpiry_samples :
    let t := after .startupSampleExpiry starting
    t.hinge.position = .closed ∧ t.hinge.settle = some 3000 ∧ t.link = starting.link := by decide

theorem test_settleTimerExpiry_settles :
    (after .settleTimerExpiry settling).hinge.settled = true
      ∧ after .settleTimerExpiry (after .startupSampleExpiry starting)
        = after .startupSampleExpiry starting := by decide

/-! ### Requests -/

theorem test_identify_reply :
    (after (.identify 9) opened).link.reply
      = some [0x01, 9, 0, 6, 240, 0, 1, 0x35, 0xFE, 0x01, 0xCB] := by decide

theorem test_reads_have_the_lengths_of_R212 :
    let len (i : Instr) := ((after i opened).link.reply.getD []).length
    len (.measure 0 0) = 46 ∧ len (.measure 0 1) = 29 ∧ len (.faults 0 0) = 31 := by decide

theorem test_ceiling_clamps :
    let t := after (.ceiling 1 2 400) opened
    t.seq.near.ceiling = 500 ∧ t.seq.far.ceiling = 500
      ∧ t.link.reply.map (·.take 3) = some [0x12, 1, 0x01] := by decide

theorem test_inhibit_two_agents :
    let one := after (.inhibitSelect 1 0 0x02) charging
    let two := after (.inhibitSelect 2 0 0x02) one
    let three := after (.inhibitSet 3 0 0x04) two
    let four := after (.inhibitClear 4 0 0x02) three
    let five := after (.inhibitEmptySelect 5 2 0x08) four
    one.inhibit = ⟨0x02, 0⟩ ∧ two.inhibit = ⟨0x02, 0⟩
      ∧ two.link.reply.map (·.take 3) = some [0x13, 2, 0x03] ∧ three.inhibit = ⟨0x06, 0⟩
      ∧ four.inhibit = ⟨0x04, 0⟩ ∧ five.inhibit = ⟨0x04, 0⟩ ∧ one.handed.seqInhibit = ⟨[true], []⟩ := by
  decide

theorem test_inhibitTest_boot :
    (after (.inhibitTest 1 3 0 0x01) charging).link.reply.map (·.take 3) = some [0x13, 1, 0x02]
      ∧ (after (.inhibitSet 1 0 0x01) charging).link.reply.map (·.take 3) = some [0x13, 1, 0x14] := by
  decide

theorem test_chargeRestart_restarts :
    let t := after (.chargeRestart 1 0)
      { fastTwo with seq := ⟨{ seqIn .expired 0 with fast := 10800000 }, seqIn .idle 0⟩ }
    t.seq.near.state = .fast ∧ t.seq.near.k = 2 ∧ t.seq.near.fast = 0 ∧ t.seq.near.demand = 2000 := by
  decide

theorem test_chargeRestart_refused :
    (after (.chargeRestart 1 2) fastTwo).link.reply.map (·.take 3) = some [0x15, 1, 0x13] := by decide

theorem test_gaugeSeed_requests :
    (after (.gaugeSeed 1 0) (withCounter (nearCounter 0 0) quiet)).counter.near.seed = .requested
      ∧ (after (.gaugeSeed 1 0) opened).counter.near.seed = .powerOn := by decide

theorem test_balance_functions :
    (after (.balanceDisable 1) transferring).alloc.enable = false
      ∧ (after (.balanceDisable 1) transferring).alloc.transfer.lastEnd = .host
      ∧ (after (.balanceEnable 1) (after (.balanceDisable 1) opened)).alloc.enable = true
      ∧ (after (.balanceCancel 1) opened).link.reply.map (·.take 3) = some [0x17, 1, 0x03]
      ∧ (after (.balanceRead 1 4) opened).link.reply.map (·.take 3) = some [0x17, 1, 0x14] := by decide

/-! ### Tables and the store (the cancelled store) -/

/-- STORE of {2, 5, 8} taken. -/
def storing : State := after (.store 1 0x0124) opened

theorem test_store_cancelled :
    let one := after .recordCompletion storing
    let two := after (.storeCancel 2) one
    let three := after .recordCompletion two
    (after (.load 3 0x0010) one).link.reply.map (·.take 3) = some [0x23, 3, 0x12]
      ∧ three.store.state = .idle
      ∧ three.link.queue.getLast? = some ⟨.store 0x0024 true, 1, 0⟩
      ∧ slotPasses .balance three.store.slots.balance = true
      ∧ slotPasses .gauge three.store.slots.gauge = false := by decide

theorem test_load_bad_record :
    (after (.load 3 0x0010) opened).link.reply
      = some [0x23, 3, 0x04, 7, 0, 0, 0x10, 0, 0, 0, 0, 0xBF] := by decide

theorem test_tableWrite_edits_and_promotes :
    let one := after (.tableWrite 1 1 17 0 [180]) opened
    let two := after (.tableWriteFinal 1 1 0 1 []) one
    one.tables.profile.near.editing = true ∧ two.tables.profile.near = cleanCopies shortProfile
      ∧ two.handed.seqPromotion = ⟨[.profile shortProfile], []⟩ := by decide

theorem test_tableWrite_protect_classes :
    (after (.tableWrite 1 6 5 0 [0]) opened).tables.protect.getD 5 9 = 1
      ∧ (after (.tableWrite 1 6 16 0 [2]) opened).tables.protect.getD 16 9 = 0 := by decide

theorem test_tableRead_of_the_factory_block :
    (after (.tableRead 1 9 0 2) opened).link.reply
      = some [0x20, 1, 0, 8, 9, 0, 2, 0, 0x92, 0x09, 0x02, 0x08, 0x27] := by decide

/-! ### Message link -/

theorem test_bad_unknown_and_length :
    (after (.badRequestFrame [0x02]) opened).link.reply = some [0x7F, 0, 0x20, 0, 0x61]
      ∧ (after (.unknownRequest 0x7F 5 []) opened).link.reply = some [0x7F, 5, 0x21, 0, 0x5B]
      ∧ (after (.lengthError 0x02 5 [1]) opened).link.reply = some [0x02, 5, 0x15, 0, 0xE4]
      ∧ after .emptyWrite opened = opened := by decide

theorem test_readReply_releases :
    let t := after (.readReply 6) (after (.softReset 4) opened)
    t.link.lastRead = [0x3F, 4, 0, 0, 0xBD, 0] ∧ t.link.reply = none
      ∧ (after (.readReply 2) t).link.lastRead = [0, 0] := by decide

theorem test_noticeFetch_gives_the_oldest :
    let t := after (.noticeFetch 4) opened
    t.link.reply = some [0x30, 4, 0, 6, 1, 1, 0, 0, 1, 0, 0xC3]
      ∧ t.link.queue = [⟨.defaulted 0x01FE, 1, 0⟩] ∧ t.link.supervisor = some 300000 := by decide

theorem test_noticeMask_removes :
    (after (.noticeMaskWrite 4 0x0002) opened).link.queue = [⟨.powerup .powerOn, 1, 0⟩]
      ∧ (after (.noticeMaskRead 4 0 0xFFFF) opened).link.reply.map (·.take 3) = some [0x31, 4, 0] := by
  decide

theorem test_supervisorExpiry_reverts :
    let r := after (.inputLimit 1 1000 0) (after (.inhibitSet 1 0 0x02) opened)
    let s : State := { r with link := { r.link with supervisor := some 0 } }
    let t := after .supervisorExpiry s
    s.input.ilim = 1000 ∧ after .supervisorExpiry r = r ∧ t.input.ilim = 500 ∧ t.inhibit = ⟨0, 0⟩
      ∧ t.link.queue.getLast? = some ⟨.reverted, 1, 0⟩ := by decide

/-! ### For each statement with hypotheses, states and operands that meet them -/

theorem test_meets_EmptyQueueLetsATenthPass : State.reset.pending = [] := by decide

/-- Slots that pass for LIMITS and PROFILE-N, and for PROFILE-F with a record that fails its checks. -/
def stored : State :=
  { State.reset with store := { State.reset.store with slots :=
    { erasedSlots with
      profileN := writtenSlot .profileN ((defaultProfile 4480 4000).map toWord)
      profileF := writtenSlot .profileF (List.replicate 18 0)
      limits := writtenSlot .limits (defaultLimits.map toWord) } } }

theorem test_meets_PowerOnLoadBringsInOrDefaults :
    stored.phase = .reset ∧ loaded.phase ≠ .reset ∧ slotPasses .bands (stored.store.slots.get .bands) = false
      ∧ slotPasses .profileN (stored.store.slots.get .profileN) = true
      ∧ checkOf stored.factory .profileN
          (adjustWords profileFields 0 (stored.store.slots.get .profileN).words) = 0
      ∧ slotPasses .profileF (stored.store.slots.get .profileF) = true
      ∧ checkOf stored.factory .profileF
          (adjustWords profileFields 0 (stored.store.slots.get .profileF).words) ≠ 0
      ∧ 3 < RecordId.limits.num ∧ slotPasses .limits (stored.store.slots.get .limits) = true := by decide

theorem test_meets_PowerOnLoadCompletionOpensThePart : loaded.phase = .loaded := by decide

theorem test_meets_RoundTimerExpiryStartsARound :
    roundDue.meas.roundTimer = some 0 ∧ roundDue.meas.inFlight = none
      ∧ opened.meas.roundTimer ≠ some 0 ∧ calibrated.meas.inFlight ≠ none ∧ opened.meas.roundTimer.isSome
      ∧ Instr.roundTimerExpiry ≠ .powerOnReset
      ∧ (∃ t, exec .roundTimerExpiry opened = .next t) ∧ (∃ t, exec .powerOnReset opened = .next t) :=
  ⟨by decide, by decide, by decide, by decide, by decide, by decide, ⟨_, rfl⟩, ⟨_, rfl⟩⟩

theorem test_meets_RoundCompletionPublishesOneSet : calibrated.meas.inFlight = some 100 := by decide

theorem test_meets_RoundCompletionUpdatesEveryChannel :
    calibrated.meas.inFlight = some 100
      ∧ (∀ v, Instr.roundTimerExpiry ≠ .roundCompletion v) ∧ Instr.roundTimerExpiry ≠ .powerOnReset
      ∧ (∃ t, exec .roundTimerExpiry opened = .next t) :=
  ⟨by decide, fun _ h => Instr.noConfusion h, by decide, _, rfl⟩

/-- The part after a flex sample. -/
def sampled : State :=
  after (.roundCompletion
    { PerChannel.all (conv 0) with vfn := conv 4120, vcf := conv 4050, icf := conv 200 }) calibrated

theorem test_meets_FlexSampleUpdatesTheEstimate :
    calibrated.meas.inFlight = some 100 ∧ sampled.meas.chan.vfn.age ≤ 2
      ∧ sampled.meas.chan.vcf.age ≤ 2 ∧ sampled.meas.chan.icf.age ≤ 2
      ∧ 200 ≤ sampled.meas.chan.icf.value.natAbs ∧ sampled.meas.flexValid = true
      ∧ Instr.roundTimerExpiry ≠ .powerOnReset
      ∧ (∃ t, exec .roundTimerExpiry sampled = .next t) :=
  ⟨by decide, by decide, by decide, by decide, by decide, by decide, by decide, _, rfl⟩

/-- A set whose near current is unusable. -/
def gapSet : MeasSet := { quiet with age := { quiet.age with icn := 3 } }

theorem test_meets_CounterIntegratesASet :
    let s := withCounter { nearCounter 0 0 with learning := .tracking } quiet
    let g := withCounter (nearCounter 0 0) gapSet
    (s.handed.counterSet.get .near = [quiet] ∧ ¬ SeedMet (s.counter.get .near) quiet .near
        ∧ ¬ EmptyMarkMet s quiet .near ∧ quiet.currentOk .near = true)
      ∧ (g.handed.counterSet.get .near = [gapSet] ∧ ¬ SeedMet (g.counter.get .near) gapSet .near
        ∧ ¬ EmptyMarkMet g gapSet .near ∧ gapSet.currentOk .near = false) := by decide

theorem test_meets_SeedsAndEmptyMarksSetTheCharge :
    let m := nearSet 100 3812 (-100)
    let s := withCounter { nearCounter 0 0 with seed := .requested } m
    let u : State := { s with tables := { s.tables with ocv := List.replicate 11 3800 } }
    let e := withCounter (nearCounter 0 0) (nearSet 100 3000 (-1))
    (s.handed.counterSet.get .near = [m] ∧ SeedMet (s.counter.get .near) m .near
        ∧ s.tables.ocv.length = 11 ∧ ¬ EmptyMarkMet s m .near
        ∧ ∀ i, i < 10 → s.tables.ocv.getD i 0 < s.tables.ocv.getD (i + 1) 0)
      ∧ (SeedMet (u.counter.get .near) m .near ∧ u.tables.ocv.length = 11
        ∧ ¬ ∀ i, i < 10 → u.tables.ocv.getD i 0 < u.tables.ocv.getD (i + 1) 0)
      ∧ EmptyMarkMet e (nearSet 100 3000 (-1)) .near
      ∧ ¬ EmptyMarkMet e (nearSet 100 3001 (-1)) .near := by decide

theorem test_meets_FullMarkLearnsAndFills :
    (marked 2512345 .tracking).handed.fullMark.get .near = 0 + 1
      ∧ (marked 2512345 .idle).handed.fullMark.get .near = 0 + 1 := by decide

/-- The far cell in FAST in band 4, with a set waiting. -/
def judged (tf : Int) : State := withSeq charging .far (seqIn .fast 2) (farSet 4020 tf)

theorem test_meets_SetHandlingDeterminesTheBand :
    (judged 469).handed.seqSet.get .far = [farSet 4020 469] ∧ ((judged 469).seq.get .far).band ≤ 6
      ∧ Widened (judged 469).tables.bands.active 469 4 ∧ ¬ Widened (judged 470).tables.bands.active 470 4
      ∧ Widened (judged 180).tables.bands.active 180 4
      ∧ ¬ Widened (judged 179).tables.bands.active 179 4 := by decide

theorem test_meets_PresenceIsTestedOnASet :
    let s := withSeq charging .far (seqIn .absent 0) (farSet 1999 300)
    s.handed.seqSet.get .far = [farSet 1999 300] ∧ (farSet 1999 300).vcOk .far = true
      ∧ (s.seq.get .far).state = .absent ∧ s.input.state = .active
      ∧ 1500 ≤ (farSet 1999 300).vc .far ∧ (farSet 1999 300).vc .far < 2000
      ∧ (after (.sequencerSetHandling .far) s).seq.far.state = .absent
      ∧ (after (.sequencerSetHandling .far)
          (withSeq charging .far (seqIn .absent 0) (farSet 2000 300))).seq.far.state = .precharge
      ∧ (after (.sequencerSetHandling .far)
          (withSeq opened .far (seqIn .absent 0) (farSet 2000 300))).seq.far.state = .idle
      ∧ (after (.sequencerSetHandling .far)
          (withSeq charging .far (seqIn .fast 1) (farSet 1499 300))).seq.far.state = .absent
      ∧ (after (.sequencerSetHandling .far)
          (withSeq charging .far (seqIn .fast 1) (farSet 1500 300))).seq.far.state = .fast := by decide

theorem test_meets_SafetyTimerExpiresAtItsLimit :
    let m := nearSet 100 2950 100
    nearlyExpired.handed.seqSet.get .near = [m] ∧ m.vcOk .near = true ∧ 1500 ≤ m.vc .near
      ∧ (nearlyExpired.afterBand .near m).reasons.any = false
      ∧ (nearlyExpired.seq.get .near).state = .precharge
      ∧ (nearlyExpired.prof .near).getD 16 0 * 60000 ≤ (nearlyExpired.seq.get .near).pre
        + timeAdded (nearlyExpired.bandsOf .near) (nearlyExpired.afterBand .near m).band m.dt := by
  decide

theorem test_safetyTimer_of_the_fast_states :
    let at_ (st : SeqState) (fast : Int) := after (.safetyTimerExpiry .far)
      (withSeq charging .far { seqIn st 0 with fast := fast } (farSet 4020 300))
    (at_ .taper 17999900).seq.far.state = .expired ∧ (at_ .taper 17999899).seq.far.state = .taper
      ∧ (at_ .fast 17999900).seq.far.fast = 18000000 := by decide

/-- What a set of the far cell makes of a record of its sequencer. -/
def onFarSet (r : SeqRecord) (vcf tf : Int) : SeqRecord :=
  (after (.sequencerSetHandling .far) (withSeq (granted charging 1200) .far r (farSet vcf tf))).seq.far

theorem test_meets_StageAdvanceAndTaperTermination :
    let m := farSet 4400 300
    let s := withSeq (granted charging 100) .far { seqIn .taper 0 with term := 2 } m
    let b := (s.afterBand .far m).band
    s.handed.seqSet.get .far = [m] ∧ m.vcOk .far = true ∧ 1500 ≤ m.vc .far
      ∧ (s.afterBand .far m).reasons.any = false
      ∧ (s.seq.get .far).fast + timeAdded (s.bandsOf .far) b m.dt < (s.prof .far).getD 17 0 * 60000
      ∧ ¬ ((s.seq.get .far).ceiling < 1000 ∧ (s.seq.get .far).ceiling ≤ s.soc .far)
      ∧ (after (.sequencerSetHandling .far) s).handed.fullMark = ⟨0, 1⟩
      ∧ (judged 300).seq.far.state = .fast
      ∧ ((judged 300).afterBand .far (farSet 4020 300)).reasons.any = false
      ∧ ((judged 700).afterBand .far (farSet 4020 700)).reasons.any = true := by decide

/-- The last grant noted: kept in FAST and by a pause, an expiry or an absence of TAPER, written on entry to
TAPER and by the taper law; the grant read is 1200 mA and the one noted before 75 mA (log 40). -/
theorem test_last_grant_noted :
    let noted (st : SeqState) (k adv : Nat) (fast vcf tf : Int) :=
      (onFarSet { seqIn st k with adv := adv, fast := fast, lastGrant := 75 } vcf tf).lastGrant
    noted .fast 1 0 0 4020 300 = 75 ∧ noted .fast 1 0 0 4400 300 = 75 ∧ noted .fast 1 1 0 4400 300 = 75
      ∧ noted .fast 3 1 0 4400 300 = 1200 ∧ noted .taper 0 0 0 4400 300 = 1200
      ∧ noted .taper 0 0 0 4400 700 = 75 ∧ noted .taper 0 0 17999900 4400 300 = 75
      ∧ noted .taper 0 0 0 1499 300 = 75 := by decide

/-- The forms of steps 3 and 5 that a boundary value tells apart. -/
theorem test_set_handling_forms :
    (onFarSet (seqIn .precharge 0) 3100 300).state = .fast
      ∧ (onFarSet (seqIn .precharge 0) 3099 300).state = .precharge
      ∧ (onFarSet { seqIn .full 0 with full := .taper } 4299 300).state = .fast
      ∧ (onFarSet { seqIn .full 0 with full := .taper } 4300 300).state = .full
      ∧ (onFarSet { seqIn .full 0 with full := .ceiling, ceiling := 500 } 4020 300).state = .fast
      ∧ (after (.sequencerSetHandling .far)
          (withSeq { charging with counter := ⟨nearCounter 0 0, nearCounter 1200000 0⟩ } .far
            { seqIn .fast 2 with ceiling := 500 } (farSet 4020 300))).seq.far.full = .ceiling
      ∧ (onFarSet (seqIn .fast 2) 4020 700).state = .paused
      ∧ (onFarSet (seqIn .idle 0) 4020 300).state = .idle
      ∧ (onFarSet { seqIn .expired 0 with fast := 18000000 } 4020 300)
        = { seqIn .expired 0 with fast := 18000000, bandT := some 300 }
      ∧ (onFarSet { seqIn .paused 0 with band := 6, reasons := ⟨false, true, false⟩ } 4020 300).state
        = .fast := by decide

theorem test_stage_advance_takes_two_sets :
    let on (r : SeqRecord) (v : Int) := (after (.sequencerSetHandling .far)
      (withSeq (granted charging 1200) .far r (farSet v 300))).seq.far
    (on (seqIn .fast 1) 3900).adv = 1 ∧ (on { seqIn .fast 1 with adv := 1 } 3899).adv = 0
      ∧ (on { seqIn .fast 1 with adv := 1 } 3900).k = 2
      ∧ (on { seqIn .fast 3 with adv := 1 } 4400).state = .taper := by decide

theorem test_meets_InputSignalsStartAndStopACharge :
    (signalled .granted).handed.seqSignal.get .near = [.granted]
      ∧ ((signalled .granted).seq.get .near).state = .idle
      ∧ (signalled .withdrawn).handed.seqSignal.get .far = [.withdrawn]
      ∧ ((signalled .withdrawn).seq.get .far).state ≠ .absent := by decide

theorem test_meets_PauseReasonsPauseAndResume :
    let s := fastTwo
    s.handed.seqInhibit.get .near = [true] ∧ s.handed.seqFault.get .near = [.blockAll]
      ∧ (s.seq.get .near).state.charging = true
      ∧ (PauseReasons.any { (s.seq.get .near).reasons with inhibit := true }) = true
      ∧ (promoted.seq.get .near).state = .paused ∧ (promoted.seq.get .near).reasons.any = true
      ∧ (PauseReasons.any { (promoted.seq.get .near).reasons with inhibit := false }) = false := by decide

/-- The default bands, with no charge in band 4. -/
def barring : Words :=
  [20, 0, 0, 0, 100, 30, 100, 200, 70, 0, 450, 0, 0, 500, 50, 150, 1200, 0, 0]

/-- The near cell PAUSED by its band alone, below its limits, as the default bands come back. -/
def resuming : State :=
  promoting { fastTwo with
    seq := ⟨{ seqIn .paused 0 with reasons := ⟨false, true, false⟩ }, seqIn .idle 0⟩ } (.bands defaultBands)

theorem test_meets_PromotionReachesTheSequencer :
    promoted.handed.seqPromotion.get .near = [.profile shortProfile]
      ∧ (promoted.seq.get .near).state = .paused
      ∧ ((promoted.sawPromotion .near (.profile shortProfile)).prof .near).getD 17 0 * 60000
        ≤ (promoted.seq.get .near).fast
      ∧ (fastTwo.seq.get .near).state.charging = true ∧ (fastTwo.seen.get .near).age ≤ 2
      ∧ (fastTwo.seq.get .near).fast < (fastTwo.prof .near).getD 17 0 * 60000
      ∧ 2 < (charging.seen.get .near).age
      ∧ (after (.seqPromotion .near) resuming).seq.near.state = .fast
      ∧ (after (.seqPromotion .near) (promoting fastTwo (.bands barring))).seq.near.reasons.band = true
      ∧ (after (.seqPromotion .near) (promoting { fastTwo with seen := charging.seen }
          (.bands barring))).seq.near.state = .absent := by decide

/-- A charging cell with VC unusable goes to ABSENT on a promotion, with a timer above its new limit too. -/
theorem test_promotion_with_vc_unusable :
    let s : State := promoting { fastTwo with
      seen := charging.seen, seq := ⟨{ seqIn .fast 2 with fast := 20000000 }, seqIn .idle 0⟩ }
      (.bands defaultBands)
    (s.prof .near).getD 17 0 * 60000 ≤ s.seq.near.fast ∧ s.seq.near.state.charging = true
      ∧ Cleared (after (.seqPromotion .near) s).seq.near .absent := by decide

theorem test_meets_SetReactionMovesEveryCondition :
    let s := withProtSet charging (nearSet 100 4551 100)
    s.handed.protSet = [nearSet 100 4551 100]
      ∧ (∀ k ∈ FaultKind.all, FaultOk s.tables.protect k (s.prot.record.get k))
      ∧ conditionAfter s.tables.protect (nearSet 100 4551 100) false .nOv = true
      ∧ conditionAfter s.tables.protect (nearSet 100 4550 100) false .nOv = false
      ∧ conditionAfter s.tables.protect (nearSet 100 4450 100) true .nOv = true
      ∧ conditionAfter s.tables.protect (nearSet 100 4449 100) true .nOv = false := by decide

theorem test_meets_TripsRearmsAndRetries :
    (charging.path.get .far).armed = true ∧ (charging.path.get .far).eff ≠ .openPath
      ∧ charging.factory.itrip .far < (-5501 : Int).natAbs
      ∧ ¬ charging.factory.itrip .far < (-5500 : Int).natAbs
      ∧ (charging.prot.record.get .fOc).active = false ∧ (tripped.prot.record.get .fOc).active = true
      ∧ Protect.classOf charging.tables.protect FaultKind.fOc.num = 2
      ∧ (tripped.path.get .far).armed = false ∧ retrying.prot.retry.get .far = some 0
      ∧ tripped.prot.retry.get .far ≠ some 0 := by decide

theorem test_repeat_occurrence :
    let t := after (.overcurrentTrip .far 6000) (after (.tripRearm .far 0) tripped)
    t.prot.record.fOc = ⟨true, true, true, 2, 0⟩ ∧ t.handed = tripped.handed := by decide

theorem test_meets_FaultClearClearsInactiveLatches :
    let cleared := after (.faultClear 0 0x0020) (after (.retryTimerExpiry .far) retrying)
    charging.phase = .running ∧ (0x2000 : Word) &&& 0xE000 ≠ 0 ∧ (0x1FFF : Word) &&& 0xE000 = 0
      ∧ cleared.handed.pathBlocks = ⟨[], [⟨false, false, true⟩, ⟨false, false, false⟩]⟩ := by
  decide

theorem test_meets_HoldFrameOrdersDiode :
    let m : MeasSet := { quiet with age := { quiet.age with vsys := 3 } }
    let e : MeasSet := { quiet with age := PerChannel.all 2 }
    (withFrame transferring m).handed.allocSet = [m] ∧ 2 < m.age.vsys
      ∧ (withFrame transferring m).alloc.transfer.active = true
      ∧ (withFrame charging m).alloc.transfer.active = false ∧ ¬ 2 < e.age.vsys := by decide

theorem test_meets_FrameGrantsAndOrdersByMode :
    let e : MeasSet := { quiet with age := PerChannel.all 2 }
    (withFrame charging e).handed.allocSet = [e] ∧ e.age.vbus ≤ 2 ∧ e.age.vsys ≤ 2 ∧ e.age.iload ≤ 2
      ∧ charging.input.state = .active ∧ folded.input.state ≠ .active
      ∧ transferring.alloc.frame.mode = .transfer ∧ transferring.alloc.transfer.active = true := by decide

/-- A set with a load that the input cannot carry. -/
def heavySet : MeasSet := { quiet with value := { quiet.value with iload := 6000 } }

/-- The discharge shared in SUPPLEMENT and in BATTERY, with the far cell limited, and with no limited cell. -/
theorem test_discharge_is_shared :
    let two (s : State) (near far : Int) : State := { s with
      counter := ⟨{ powerOnCounter 2000 with q := near }, { powerOnCounter 2000 with q := far }⟩ }
    let battery : MeasSet := { heavySet with value := { heavySet.value with vbus := 0, vcn := 3950 } }
    let one := (after .allocationFrame (withFrame (two charging 1120000 840000) heavySet)).alloc.frame
    let all := (after .allocationFrame (withFrame (two folded 1000000 1000000) battery)).alloc.frame
    let low := (after .allocationFrame (withFrame (two folded 1120000 840000) battery)).alloc.frame
    one.mode = .supplement ∧ one.limit.isSome ∧ one.order.near = .diode
      ∧ one.order.far = ((one.limit.map fun p => Order.limit p.2).getD .diode)
      ∧ all.mode = .battery ∧ all.limit = none ∧ all.order = ⟨.closed, .closed⟩
      ∧ low.order.near = .closed ∧ low.limit.map (·.1) = some .far := by decide

/-- The worked transfer goes on, and ends with its cause and notice when the gap has closed. -/
theorem test_transfer_step :
    let on (gap : Int) := after .allocationFrame (withFrame { transferring with
      counter := ⟨{ powerOnCounter 2000 with q := 1000000 + 2000 * gap },
        { powerOnCounter 2000 with q := 1000000 }⟩ } batterySet)
    (on 31).alloc.transfer.active = true ∧ (on 31).alloc.transfer.frames = 1
      ∧ (on 30).alloc.transfer = ⟨false, some .near, some .far, 300, 0, 1, .done, 300⟩
      ∧ (on 30).link.queue.getLast? = some ⟨.transfer .done (some .near) (some .far) 0 1, 1, 2⟩ := by
  decide

theorem test_meets_GrantsStayWithinTheHeadroom :
    let g := grants 2051 640 2000 1500
    (0 : Int) ≤ 640 ∧ (640 : Int) ≤ 1000 ∧ (0 : Int) ≤ 2000 ∧ (0 : Int) ≤ 1500 ∧ g = ⟨1300, 725⟩
      ∧ (2051 : Int) < 2000 + 1500
      ∧ grants 0 1000 0 0 = ⟨0, 0⟩ ∧ (2000 : Int) + 1500 ≤ 3500 := by decide

theorem test_meets_EventsBetweenFramesEndTransfersAndCutGrants :
    (∀ e ∈ [TransferEvent.hingeUnsettled, .restriction .near, .inhibit .far, .sysUv],
        e ≠ .inputGranted ∧ e ∈ (interrupted e).handed.transfer
          ∧ (interrupted e).alloc.transfer.active = true)
      ∧ (interrupted .inputGranted).handed.allocSignal = List.replicate 1 .granted ++ .withdrawn :: []
      ∧ (interrupted .inputGranted).alloc.transfer.active = true ∧ charging.alloc.transfer.active = false
      ∧ (interrupted .sysUv).alloc.transfer.receiver = some .far
      ∧ regulating.handed.pathHinge = 0 + 1 ∧ (signalled .withdrawn).handed.allocSignal = [.withdrawn] := by
  decide

theorem test_meets_PathTakesOrdersRampsAndRestrictions :
    let s := ordered charging .closed
    s.handed.pathOrder.get .far = [.closed] ∧ (s.path.get .far).ordered ≠ .closed
      ∧ ((ordered charging .diode).path.get .far).ordered = .diode
      ∧ charging.hinge.settled = true ∧ regulating.hinge.settled = false
      ∧ (ramped.path.get .far).eff = .ramp ∧ (ramped.path.get .far).ramp = some 0
      ∧ (ramping.path.get .far).ramp ≠ some 0
      ∧ (blocked ⟨true, true, false⟩).handed.pathBlocks.get .far = [⟨true, true, false⟩]
      ∧ ((blocked ⟨false, false, false⟩).path.get .far).restriction = .none := by decide

theorem test_meets_ImmediateEventsDemoteOrders :
    (signalled .granted).handed.pathSignal.get .near = [.granted]
      ∧ (signalled .withdrawn).handed.pathSignal.get .near = [.withdrawn]
      ∧ regulating.handed.pathHinge = 0 + 1 := by decide

theorem test_meets_ConnectorEdgesMoveTheInputStage :
    opened.phase = .running ∧ attached.input.present.timer = some 0
      ∧ attaching.input.present.timer ≠ some 0
      ∧ (after (.comparatorRawChange 15000) opened).input.ov.timer.isSome
      ∧ State.reset.phase ≠ .running
      ∧ (after (.comparatorRawChange 15000) State.reset).input.ov = ⟨true, false, none⟩
      ∧ edgeTable true false .present .detached = .qualifying
      ∧ edgeTable true true .present .blocked = .blocked := by decide

theorem test_meets_QualificationAndReasonsMoveTheInput :
    let s : State := { opened with input := inputIn .qualifying ⟨true, false⟩ }
    let d : State := { charging with handed := { charging.handed with die := [true] } }
    s.input.state = .qualifying ∧ s.input.qual = some 0 ∧ charging.input.qual ≠ some 0
      ∧ d.handed.die = [true]
      ∧ d.phase = .running ∧ d.input.state = .active ∧ d.input.reasons.any = false
      ∧ (SuspendReasons.any { d.input.reasons with die := true }) = true := by decide

theorem test_meets_SagDerateAndInputLimitSetTheInput :
    (withInputSet charging 4699).handed.inputSet.length = 1 ∧ charging.input.state = .active
      ∧ charging.phase = .running
      ∧ (after .inputSagDerateStep (withInputSet charging 4499)).input.sd = 900
      ∧ (after .inputSagDerateStep
          (withInputSet { charging with input := { charging.input with sd := 900 } } 4699)).input.sd = 900
      ∧ (after .inputSagDerateStep
          (withInputSet { charging with input := { charging.input with sd := 900 } } 4700)).input.sd
        = 950 := by decide

theorem test_meets_HingeFollowsTheFoldInputs :
    opened.phase = .running ∧ opened.hinge.startup.isSome ∧ leaving.hinge.startup = none
      ∧ leaving.hinge.conflicts ≤ 255 ∧ leaving.hinge.foldB.timer = some 0
      ∧ starting.hinge.startup = some 0 ∧ settling.hinge.settle = some 0
      ∧ opened.hinge.foldA.timer ≠ some 0 ∧ opened.hinge.startup ≠ some 0 ∧ opened.hinge.settle ≠ some 0
      ∧ true ≠ opened.hinge.foldA.raw ∧ false ≠ openHinge.foldB.raw
      ∧ State.reset.phase ≠ .running ∧ true ≠ State.reset.hinge.foldA.raw
      ∧ (after (.foldRawChange .foldA true) State.reset).hinge.foldA = ⟨true, false, none⟩ := by decide

theorem test_meets_ChargeRestartReentersTheTarget :
    fastTwo.phase = .running ∧ 2 < (3 : Byte).toNat ∧ (2 : Byte).toNat ≤ 2
      ∧ (fastTwo.seq.get .near).state = .fast ∧ (fastTwo.seq.get .far).state = .idle := by decide

theorem test_meets_CeilingAndSeedRequestsActOnTheTarget :
    let s : State := { fastTwo with counter := ⟨nearCounter 2400000 0, nearCounter 0 0⟩ }
    s.phase = .running ∧ 2 < (3 : Byte).toNat ∧ (2 : Byte).toNat ≤ 2
      ∧ (s.seq.get .near).ceiling ≠ 999 ∧ (s.seq.get .near).state.charging = true ∧ (999 : Int) ≤ s.soc .near
      ∧ (s.counter.get .near).seed = .none ∧ (opened.counter.get .near).seed ≠ .none
      ∧ (after (.ceiling 1 0 999) s).seq.near.full = .ceiling := by decide

theorem test_meets_BalanceSetsTheEnableAndEndsTransfers :
    transferring.phase = .running ∧ transferring.alloc.transfer.active = true
      ∧ opened.phase = .running ∧ opened.alloc.transfer.active = false := by decide

theorem test_meets_InhibitFunctionsActOnTheTarget :
    charging.phase = .running ∧ 2 < (3 : Byte).toNat ∧ ¬ 2 < (2 : Byte).toNat
      ∧ (0x03 : Byte) &&& 1 ≠ 0 ∧ ¬ (0x02 : Byte) &&& 1 ≠ 0 ∧ (5 : Byte) ≠ 3 := by decide

theorem test_meets_StoreWritesASnapshot :
    storing.phase = .running
      ∧ storing.store.state
        = .writing ⟨.profileF, [.balance, .gauge], [], false, storing.snapshot [.profileF, .balance, .gauge]⟩
      ∧ opened.store.state = .idle ∧ (0x0200 : Word) &&& 0xFE01 ≠ 0 ∧ (0x0124 : Word) &&& 0xFE01 = 0
      ∧ recordsIn 0x0124 = [.profileF, .balance, .gauge] := by decide

/-- The stored slots with the part running. -/
def reloading : State := { opened with store := { opened.store with slots := stored.store.slots } }

theorem test_meets_LoadBringsASlotIntoForce :
    reloading.phase = .running ∧ reloading.store.state = .idle
      ∧ slotPasses .bands (reloading.store.slots.get .bands) = false
      ∧ slotPasses .limits (reloading.store.slots.get .limits) = true ∧ 4 ≤ RecordId.limits.num
      ∧ slotPasses .profileF (reloading.store.slots.get .profileF) = true
      ∧ reloading.copiesOf .profileF = some reloading.tables.profile.far
      ∧ storing.store.state ≠ .idle
      ∧ (0x0200 : Word) &&& 0xFE01 ≠ 0 ∧ (0x01FE : Word) &&& 0xFE01 = 0
      ∧ (after (.load 1 0x0006) reloading).link.reply.map (·.take 12)
        = some [0x23, 1, 0, 7, 6, 0, 0, 0, 0, 2, 0, 0xCD] := by decide

theorem test_meets_TableWriteStoresAndPromotes :
    opened.phase = .running ∧ opened.copiesOf .bands = some opened.tables.bands
      ∧ (3 : Byte) = BitVec.ofNat 8 RecordId.bands.num
      ∧ RecordId.bands.length < (18 : Byte).toNat + [0, 0].length
      ∧ ¬ RecordId.bands.length < (18 : Byte).toNat + [0].length ∧ [0, 0].length ≤ 28 := by decide

theorem test_meets_TablesAreReadAndWritten :
    opened.phase = .running ∧ 4 ≤ RecordId.limits.num ∧ (4 : Byte) = BitVec.ofNat 8 RecordId.limits.num
      ∧ (12 : Byte).toNat + [20].length ≤ RecordId.limits.length ∧ [20].length ≤ 28
      ∧ RecordId.limits.length < (12 : Byte).toNat + [20, 20].length ∧ (2 : Byte) &&& 0xFE ≠ 0
      ∧ ¬ (1 : Byte) &&& 0xFE ≠ 0 ∧ 28 < (29 : Byte).toNat
      ∧ (after (.tableWrite 1 10 0 2 [20]) opened).link.reply.map (·.take 10)
        = some [0x21, 1, 0x14, 6, 10, 0, 0, 0, 0, 0]
      ∧ (tableOf 13).isSome ∧ (tableOf 10).isNone ∧ (tableOf 14).isNone ∧ (28 : Byte).toNat ≤ 28 := by
  decide

theorem test_meets_TransactionsThatReachNoBlock :
    opened.phase = .running ∧ State.reset.phase ≠ .running
      ∧ encode (.status 0x11) = some [0x02, 0x11, 0x00, 0xED]
      ∧ (0x35 : BitVec 7).toNat = opened.factory.linkAddr
      ∧ (0x36 : BitVec 7).toNat ≠ opened.factory.linkAddr := by decide

/-- The empty link. -/
def emptyLink : Link := { powerOnLink with enabled := 0x0020 }

theorem test_meets_NoticesQueueOrMerge :
    emptyLink.enabled.getLsbD (Payload.reverted).kind = false
      ∧ emptyLink.enabled.getLsbD (Payload.fault 1).kind = true
      ∧ (∀ e ∈ emptyLink.queue, e.payload.kind ≠ (Payload.fault 1).kind)
      ∧ (emptyLink.notify 7 (.fault 1)).queue = [] ++ ⟨.fault 1, 1, 7⟩ :: []
      ∧ ((emptyLink.notify 7 (.fault 1)).notify 8 (.fault 4)).queue = [⟨.fault 5, 2, 7⟩] := by decide

theorem test_meets_NoticesAreFetchedAndMasked :
    opened.phase = .running
      ∧ opened.link.queue = ⟨.powerup .powerOn, 1, 0⟩ :: [⟨.defaulted 0x01FE, 1, 0⟩]
      ∧ (after (.noticeFetch 1) (after (.noticeFetch 0) opened)).link.queue = []
      ∧ (0x2000 : Word) &&& 0xE001 ≠ 0 ∧ (0x1FFE : Word) &&& 0xE001 = 0 ∧ (2 : Byte) ≠ 0 := by decide

theorem test_meets_RevertReturnsTheHostSettings :
    let r := after (.inputSuspendSuspend 1) charging
    let s : State := { r with link := { r.link with supervisor := some 0 } }
    s.link.supervisor = some 0 ∧ r.link.supervisor ≠ some 0 ∧ s.phase = .running ∧ s.input.state = .suspended
      ∧ s.input.reasons.host = true ∧ s.input.reasons.die = false
      ∧ s.link.enabled.getLsbD 11 = true ∧ s.tables.balance.getD 2 0 ≠ 0 := by decide

/-- A revert hands its grant to the sequencers and the paths, tells an inhibit set that empties to its
sequencer, and queues REVERTED. -/
theorem test_revert_hands_on :
    let s := after (.inputSuspendSuspend 1) charging
    let u := after (.inhibitSet 1 1 2) charging
    let t := after .supervisorExpiry { u with link := { powerOnLink with supervisor := some 0 } }
    s.revertHost.handed.seqSignal = ⟨[.withdrawn, .granted], [.withdrawn, .granted]⟩
      ∧ s.revertHost.handed.pathSignal = ⟨[.withdrawn, .granted], [.withdrawn, .granted]⟩
      ∧ t.handed.seqInhibit = ⟨[], [true, false]⟩
      ∧ t.link.queue.map (·.payload.kind) = [11] := by decide

/-- A revert that ends the transfer on the grant it has issued takes that grant from what waits. -/
theorem test_revert_takes_the_grant :
    let s : State := { transferring with handed := { transferring.handed with allocSignal := [.granted] }
                                         tables := { transferring.tables with
                                           balance := [4, 20, 0, 100, 30, 300, 300, 500, 300] } }
    (s.revertTransferAfterGrant true).handed.allocSignal = []
      ∧ (s.revertTransferAfterGrant true).alloc.transfer.lastEnd = .input
      ∧ (s.revertTransferAfterGrant false).handed.allocSignal = [.granted]
      ∧ (s.revertTransferAfterGrant false).alloc.transfer.lastEnd = .host := by decide

theorem test_meets_ReadRequestsChangeNothing :
    opened.phase = .running ∧ (1 : Byte).toNat ≤ 1 ∧ 1 < (2 : Byte).toNat ∧ 2 < (3 : Byte).toNat := by
  decide

theorem test_meets_DecodeOfEncodeIsTheCommand :
    Instr.wf (.tableWriteFinal 5 1 0 1 [0x1234]) = true
      ∧ encode (.tableWriteFinal 5 1 0 1 [0x1234])
        = some [0x21, 0x05, 0x06, 0x01, 0x00, 0x01, 0x01, 0x34, 0x12, 0x8B] := by decide

/-! The premises of the statements about every step, in states away from reset. -/

theorem test_meets_QueueHoldsOneEntryForAKind : QueueOk opened.link := by decide

theorem test_meets_HeldReplyIsAWholeFrame : ReplyOk (after (.identify 1) opened).link := by decide

theorem test_meets_CountersStayWithinTheirBounds : FactoryOk charging.factory ∧ CountersOk charging := by
  decide

theorem test_meets_TablesAndStoreStayValid :
    FactoryOk storing.factory ∧ TablesOk storing.factory storing.tables ∧ StoreOk storing.store
      ∧ SlotsOk storing.store := by
  refine ⟨by decide, by decide, ?_, by decide⟩
  unfold StoreOk
  rw [test_meets_StoreWritesASnapshot.2.1]
  decide

theorem test_meets_FaultActionsReachTheirReceivers : FaultsOk tripped ∧ ActionsReach tripped := by decide

theorem test_meets_RestrictedPathsStayBlocked :
    Both ramping.path PathOk
      ∧ OpenUnderInput ramping.inputActive ramping.path.near ramping.handed.pathSignal.near
      ∧ OpenUnderInput ramping.inputActive ramping.path.far ramping.handed.pathSignal.far :=
  ⟨⟨⟨fun h => absurd h (by decide), fun h => absurd h (by decide), fun h => absurd h (by decide),
      by decide, by decide⟩,
    ⟨fun h => absurd h (by decide), fun h => absurd h (by decide), fun h => absurd h (by decide),
      by decide, by decide⟩⟩, by decide, by decide⟩

theorem test_meets_FarPathStaysHeldWhileUnsettled :
    HingeOk (decide (leaving.phase = .running)) leaving.hinge
      ∧ InFields limitsFields leaving.tables.limits ∧ FarHeld leaving :=
  ⟨by decide, by decide, fun h => absurd h (by decide)⟩

theorem test_meets_InputStageStaysConsistent :
    InputOk charging.input ∧ AttachOk (decide (charging.phase = .running)) charging.input.present
      ∧ AttachOk (decide (charging.phase = .running)) charging.input.ov := by decide

theorem test_meets_CellsChargeOnlyUnderAnActiveInput :
    Both fastTwo.seq SeqOk ∧ ChargesUnderInput fastTwo.inputActive fastTwo.seq.near fastTwo.handed.seqSignal.near
      ∧ ChargesUnderInput fastTwo.inputActive fastTwo.seq.far fastTwo.handed.seqSignal.far :=
  ⟨⟨by decide, by decide⟩, by decide, by decide⟩

theorem test_meets_TransfersRunOnlyWhereAllowed :
    HingeOk (decide (transferring.phase = .running)) transferring.hinge
      ∧ TransferNamed transferring.alloc.transfer ∧ TransferOk transferring :=
  ⟨by decide, fun _ => ⟨.far, by decide, by decide⟩, by decide⟩

theorem test_meets_PauseReasonsFollowTheirSources :
    let s := after (.inhibitSet 1 0 0x02) charging
    (ReasonsFollow (s.seq.get .near) (s.inhibit.get .near) (s.path.get .near).restriction
        (s.handed.seqInhibit.get .near) (s.handed.seqFault.get .near)
      ∧ ReasonsFollow (s.seq.get .far) (s.inhibit.get .far) (s.path.get .far).restriction
        (s.handed.seqInhibit.get .far) (s.handed.seqFault.get .far))
      ∧ SeenOk atVc4080 ∧ SeenOk promoted := by decide

/-- The input switch holds the input current to ILIM in ACTIVE, and follows a new one at once (R132). -/
theorem test_input_switch :
    charging.inputSwitch = .held charging.input.ilim ∧ opened.inputSwitch = .blocked
      ∧ (after (.inputLimit 1 1500 0) charging).inputSwitch = .held 1500
      ∧ (after (.inputSuspendSuspend 1) charging).inputSwitch = .blocked := by decide

/-- The columns of the table of R112. -/
theorem test_conduct_of_the_effective_states :
    (Effective.regulate 500).discharge = .diode ∧ (Effective.regulate 500).charge = .regulated 500
      ∧ (Effective.limit 500).discharge = .diodeHeld 500 ∧ (Effective.chargeOnly 500).discharge = .blocked
      ∧ Effective.ramp.discharge = .held 500 ∧ Effective.closed.charge = .resistance := by decide

end Sys2Proof.Tests
end

section
/-! PROOFS. CHARGE-RESTART (R77): what a target names, what a restart of one cell does, and the restart of every cell of a target. -/

namespace Sys2Proof.Machine

/-! ### Targets (R212) -/

/-- A target value above 2 names no cell. -/
theorem targetOf_eq_none {b : Byte} (h : 2 < b.toNat) : targetOf b = none := by
  have h0 : b ≠ 0 := by bv_omega
  have h1 : b ≠ 1 := by bv_omega
  have h2 : b ≠ 2 := by bv_omega
  rw [targetOf, if_neg h0, if_neg h1, if_neg h2]

/-- The target values up to 2 name cells. -/
theorem exists_targetOf_eq_some {b : Byte} (h : b.toNat ≤ 2) : ∃ cells, targetOf b = some cells := by
  obtain rfl | rfl | rfl : b = 0 ∨ b = 1 ∨ b = 2 := by bv_omega
  · exact ⟨[.near], rfl⟩
  · exact ⟨[.far], rfl⟩
  · exact ⟨[.near, .far], rfl⟩

/-- The cells of a target are those that its value names, and both for 2. -/
theorem mem_targetOf {b : Byte} {cells : List Cell} (h : targetOf b = some cells) (c : Cell) :
    c ∈ cells ↔ b = 2 ∨ b = cellCode c := by
  have hb : b.toNat ≤ 2 := Nat.le_of_not_lt fun hbad => by
    rw [targetOf_eq_none hbad] at h
    cases h
  obtain rfl | rfl | rfl : b = 0 ∨ b = 1 ∨ b = 2 := by bv_omega
  · obtain rfl : [.near] = cells := Option.some.inj h
    cases c <;> decide
  · obtain rfl : [.far] = cells := Option.some.inj h
    cases c <;> decide
  · obtain rfl : [.near, .far] = cells := Option.some.inj h
    cases c <;> decide

namespace State
variable (s : State)

/-- No notice is due where the record stays as it is (R79). -/
@[simp] theorem noticed_same (c : Cell) (l : Link) : s.noticed c (s.seq.get c) l = l := by
  simp [noticed]

/-! ### One cell restarted (R66, R77) -/

/-- The record that a restart gives a cell. -/
def reentry (c : Cell) : SeqRecord := Seq.entryReset (s.seqEnv c) (s.seq.get c)

/-- A restart's record is that of an entry evaluation with both timers at 0. -/
theorem reentry_outcome (c : Cell) :
    entryOutcome (s.inForce c) (s.alloc.frame.grant.get c) (s.seq.get c) 0 0 (s.reentry c) :=
  Seq.entry_outcome (s.seqEnv c) (s.seq.get c) (s.vc c).age rfl 0 0

/-- A restart touches the cell's record, what its sets are handled against and the notice queue alone. -/
theorem restartCell_eq (c : Cell) :
    restartCell c s = { s with
      seq := s.seq.set c (s.reentry c)
      seen := (s.holdsStage c (s.reentry c)).seen
      link := s.noticed c (s.reentry c) s.link } :=
  s.takeEventSeq_took c (s.reentry c)

/-! ### Every cell of a target restarted (R77) -/

/-- The records after a restart of some cells. -/
def seqRestarted (cells : List Cell) : PerCell SeqRecord :=
  let one (c : Cell) : SeqRecord := if c ∈ cells then s.reentry c else s.seq.get c
  ⟨one .near, one .far⟩

/-- What the cells' sets are handled against after a restart of some cells. -/
def seenRestarted (cells : List Cell) : PerCell SeqSeen :=
  let one (c : Cell) : SeqSeen :=
    if c ∈ cells then (s.holdsStage c (s.reentry c)).seen.get c else s.seen.get c
  ⟨one .near, one .far⟩

section
variable {s : State} {cells : List Cell} {c : Cell}

theorem seqRestarted_of_mem (h : c ∈ cells) : (s.seqRestarted cells).get c = s.reentry c := by
  cases c <;> exact if_pos h

theorem seqRestarted_of_notMem (h : c ∉ cells) : (s.seqRestarted cells).get c = s.seq.get c := by
  cases c <;> exact if_neg h

theorem seenRestarted_of_mem (h : c ∈ cells) :
    (s.seenRestarted cells).get c = (s.holdsStage c (s.reentry c)).seen.get c := by
  cases c <;> exact if_pos h

theorem seenRestarted_of_notMem (h : c ∉ cells) : (s.seenRestarted cells).get c = s.seen.get c := by
  cases c <;> exact if_neg h

end

/-- The restart of a target restarts each cell as if it were alone, for neither cell's entry evaluation reads
what the other's writes; the near cell's notice comes first. -/
theorem forEach_restartCell_eq {target : Byte} {cells : List Cell} (h : targetOf target = some cells) :
    s.forEach cells restartCell = { s with
      seq := s.seqRestarted cells
      seen := s.seenRestarted cells
      link := s.noticed .far (s.seqRestarted cells).far
        (s.noticed .near (s.seqRestarted cells).near s.link) } := by
  have mem := mem_targetOf h
  obtain ⟨rfl, hu⟩ | ⟨rfl, hu⟩ | ⟨rfl, hu⟩ := s.forEach_cases restartCell target cells h
  · have hn : Cell.near ∈ cells := (mem .near).2 (by decide)
    have hf : Cell.far ∉ cells := fun hc => absurd ((mem .far).1 hc) (by decide)
    simp only [hu, restartCell_eq, seqRestarted, seenRestarted, hn, hf, if_true, if_false, noticed_same]
    rfl
  · have hn : Cell.near ∉ cells := fun hc => absurd ((mem .near).1 hc) (by decide)
    have hf : Cell.far ∈ cells := (mem .far).2 (by decide)
    simp only [hu, restartCell_eq, seqRestarted, seenRestarted, hn, hf, if_true, if_false, noticed_same]
    rfl
  · have hn : Cell.near ∈ cells := (mem .near).2 (by decide)
    have hf : Cell.far ∈ cells := (mem .far).2 (by decide)
    simp only [hu, restartCell_eq, seqRestarted, seenRestarted, hn, hf, if_true]
    rfl

/-! ### The request (R77) -/

/-- A restart is barred for a cell in IDLE or ABSENT. -/
theorem restartBarred_iff (c : Cell) :
    s.restartBarred c = true ↔ (s.seq.get c).state = .idle ∨ (s.seq.get c).state = .absent := by
  simp [restartBarred]

theorem chargeRestart_badTarget {target : Byte} (h : targetOf target = none) :
    chargeRestart target s = ⟨s, .badArg, s.restartBody⟩ := by
  simp [chargeRestart, h, badArg]

theorem chargeRestart_barred {target : Byte} {cells : List Cell} (h : targetOf target = some cells)
    {c : Cell} (hc : c ∈ cells) (hb : s.restartBarred c = true) :
    chargeRestart target s = ⟨s, .refused, s.restartBody⟩ := by
  have any : cells.any s.restartBarred = true := List.any_eq_true.2 ⟨c, hc, hb⟩
  simp [chargeRestart, h, any]

theorem chargeRestart_taken {target : Byte} {cells : List Cell} (h : targetOf target = some cells)
    (hb : ∀ c ∈ cells, ¬ s.restartBarred c = true) :
    chargeRestart target s
      = ⟨s.forEach cells restartCell, .ok, (s.forEach cells restartCell).restartBody⟩ := by
  have any : cells.any s.restartBarred = false := List.any_eq_false.2 hb
  simp [chargeRestart, h, any, shows]

/-- CHARGE-RESTART replies with what carrying it out gives. -/
theorem exec_chargeRestart (tag target : Byte) (h : s.phase = .running) :
    exec (.chargeRestart tag target) s = .next ((chargeRestart target s).reply 0x15 tag) :=
  s.request_running .chargeRestart tag (chargeRestart target) h

end State

/-- Settles O34: the target is judged whole by the membership of its cells, and the restart of each of its
cells is that of the cell alone. -/
theorem chargeRestartReentersTheTarget : Obligations.ChargeRestartReentersTheTarget := by
  unfold Obligations.ChargeRestartReentersTheTarget
  intro s tag target hrun inTarget barred
  rw [s.exec_chargeRestart tag target hrun]
  refine ⟨fun hbad => ?_, fun hgood hbar => ?_, fun hgood hnear hfar => ?_⟩
  · rw [s.chargeRestart_badTarget (targetOf_eq_none hbad)]
  · obtain ⟨cells, hcells⟩ := exists_targetOf_eq_some hgood
    obtain ⟨c, hin, hstate⟩ : ∃ c, barred c := hbar.elim (⟨.near, ·⟩) (⟨.far, ·⟩)
    rw [s.chargeRestart_barred hcells ((mem_targetOf hcells c).2 hin) ((s.restartBarred_iff c).2 hstate)]
  · obtain ⟨cells, hcells⟩ := exists_targetOf_eq_some hgood
    have free : ∀ c, ¬ barred c
      | .near => hnear
      | .far => hfar
    have hfree : ∀ c ∈ cells, ¬ s.restartBarred c = true := fun c hc hb =>
      free c ⟨(mem_targetOf hcells c).1 hc, (s.restartBarred_iff c).1 hb⟩
    refine ⟨s.forEach cells State.restartCell, by rw [s.chargeRestart_taken hcells hfree], ?_⟩
    rw [s.forEach_restartCell_eq hcells]
    refine ⟨rfl, rfl, fun c => ⟨fun hin => ?_, fun hout => ?_⟩⟩
    · have hc : c ∈ cells := (mem_targetOf hcells c).2 hin
      rw [State.seqRestarted_of_mem hc, State.seenRestarted_of_mem hc]
      exact ⟨s.reentry_outcome c, rfl⟩
    · have hc : c ∉ cells := fun hc => hout ((mem_targetOf hcells c).1 hc)
      exact ⟨State.seqRestarted_of_notMem hc, State.seenRestarted_of_notMem hc⟩

end Sys2Proof.Machine
end

section
/-! PROOFS. The watched part of the state (what the measurement unit, the pause reasons and the sequencers' copies follow), the few ways in which a command moves it, and the operations that leave it alone. -/

namespace Sys2Proof

theorem PerCell.map_set {α β : Type} (f : α → β) (p : PerCell α) (c : Cell) (v : α) :
    (p.set c v).map f = (p.map f).set c (f v) := by cases c <;> rfl

namespace Machine

/-! ### The watched part -/

/-- The measurement unit; the INHIBIT and FAULT pause reasons with what they follow (R62, R124, R179); and what
the sequencers hold with what that follows (R8, R51). -/
structure Watched where
  phase : Phase
  meas : MeasUnit
  inhibited : PerCell Bool
  faulted : PerCell Bool
  inhibit : PerCell Byte
  restriction : PerCell Restriction
  seqInhibit : PerCell (List Bool)
  seqFault : PerCell (List Restriction)
  seen : PerCell SeqSeen
  profile : PerCell Words
  bands : Words
  seqSet : PerCell (List MeasSet)
  seqPromotion : PerCell (List Promoted)

/-- The watched part of a state. -/
def State.watched (s : State) : Watched where
  phase := s.phase
  meas := s.meas
  inhibited := s.seq.map (·.reasons.inhibit)
  faulted := s.seq.map (·.reasons.fault)
  inhibit := s.inhibit
  restriction := s.path.map (·.restriction)
  seqInhibit := s.handed.seqInhibit
  seqFault := s.handed.seqFault
  seen := s.seen
  profile := s.tables.profile.map (·.active)
  bands := s.tables.bands.active
  seqSet := s.handed.seqSet
  seqPromotion := s.handed.seqPromotion

namespace State
variable (s : State) (c : Cell)

@[simp] theorem watched_inhibited_get : s.watched.inhibited.get c = (s.seq.get c).reasons.inhibit :=
  PerCell.get_map ..
@[simp] theorem watched_faulted_get : s.watched.faulted.get c = (s.seq.get c).reasons.fault :=
  PerCell.get_map ..
@[simp] theorem watched_restriction_get : s.watched.restriction.get c = (s.path.get c).restriction :=
  PerCell.get_map ..
@[simp] theorem watched_profile_get : s.watched.profile.get c = (s.tables.profile.get c).active :=
  PerCell.get_map ..

end State

/-- What a command does to the watched part at a time, POWER_ON_RESET and ROUND_COMPLETION aside. -/
inductive Move : Watched → Watched → Prop
  /-- The power-on load brings the active tables in, and the sequencers start with them (R55, R196). -/
  | loads (w : Watched) (profile : PerCell Words) (bands : Words) : w.phase = .reset →
      Move w { w with
        phase := .loaded, profile := profile, bands := bands
        seen := ⟨{ w.seen.near with prof := profile.near, bands := bands },
          { w.seen.far with prof := profile.far, bands := bands }⟩ }
  /-- The completion of the power-on load starts the round timer (R18, R196). -/
  | opens (w : Watched) (n : Nat) :
      Move w { w with phase := .running, meas := { w.meas with roundTimer := some n } }
  /-- The round timer restarts and a round begins (R4). -/
  | startsRound (w : Watched) (n dt : Nat) :
      Move w { w with meas := { w.meas with roundTimer := some n, inFlight := some dt } }
  /-- The oldest set that waits is handled (R59). -/
  | takesSet (w : Watched) (c : Cell) (m : MeasSet) (rest : List MeasSet) : w.seqSet.get c = m :: rest →
      Move w { w with
        seqSet := w.seqSet.set c rest, seen := w.seen.set c ((w.seen.get c).onSet c m) }
  /-- An event between sets gives a stage, which the copy worked from has to hold (R41). -/
  | holds (w : Watched) (c : Cell) (k : Nat) :
      Move w { w with seen := w.seen.set c ((w.seen.get c).holding (w.profile.get c) k) }
  /-- The oldest promotion event that waits is taken (R51). -/
  | takesPromotion (w : Watched) (c : Cell) (p : Promoted) (rest : List Promoted) :
      w.seqPromotion.get c = p :: rest →
      Move w { w with
        seqPromotion := w.seqPromotion.set c rest, seen := w.seen.set c ((w.seen.get c).onPromotion p) }
  /-- The oldest inhibit event that waits is taken (R179). -/
  | takesInhibit (w : Watched) (c : Cell) (b : Bool) (rest : List Bool) : w.seqInhibit.get c = b :: rest →
      Move w { w with seqInhibit := w.seqInhibit.set c rest, inhibited := w.inhibited.set c b }
  /-- The oldest restriction change that waits is taken (R124). -/
  | takesFault (w : Watched) (c : Cell) (x : Restriction) (rest : List Restriction) :
      w.seqFault.get c = x :: rest →
      Move w { w with seqFault := w.seqFault.set c rest, faulted := w.faulted.set c x.blocksCharge }
  /-- A path's restriction changes and is handed on (R114, R124). -/
  | restricts (w : Watched) (c : Cell) (x : Restriction) :
      Move w { w with
        restriction := w.restriction.set c x, seqFault := w.seqFault.set c (w.seqFault.get c ++ [x]) }
  /-- An inhibit set changes and is handed on (R179). -/
  | inhibits (w : Watched) (c : Cell) (x : Byte) :
      Move w { w with
        inhibit := w.inhibit.set c x, seqInhibit := w.seqInhibit.set c (w.seqInhibit.get c ++ [x != 0]) }
  /-- A profile is promoted (R47, R51). -/
  | promotesProfile (w : Watched) (c : Cell) (new : Words) : w.phase = .running →
      Move w { w with
        profile := w.profile.set c new
        seqPromotion := w.seqPromotion.set c (w.seqPromotion.get c ++ [.profile new]) }
  /-- The band table is promoted (R47, R51). -/
  | promotesBands (w : Watched) (new : Words) : w.phase = .running →
      Move w { w with bands := new, seqPromotion := w.seqPromotion.map (· ++ [.bands new]) }

/-- Any number of moves. -/
inductive Moves : Watched → Watched → Prop
  | refl (w : Watched) : Moves w w
  | tail {u v w : Watched} : Moves u v → Move v w → Moves u w

theorem Moves.of_eq {w v : Watched} (h : v = w) : Moves w v := h ▸ Moves.refl w

theorem Moves.trans {u v w : Watched} (h : Moves u v) (g : Moves v w) : Moves u w := by
  induction g with
  | refl => exact h
  | tail _ move ih => exact ih.tail move

theorem Move.moves {w v : Watched} (h : Move w v) : Moves w v := (Moves.refl w).tail h

/-- What each move keeps, any number of them keeps. -/
theorem Moves.keeps {P : Watched → Prop} (hP : ∀ {w v}, Move w v → P w → P v) {w v : Watched}
    (h : Moves w v) (hw : P w) : P v := by
  induction h with
  | refl => exact hw
  | tail _ move ih => exact hP move ih

/-! ### The pause reasons of a sequencer's record -/

/-- The pause reasons that other blocks bring are the same. -/
abbrev SeqRecord.SameSources (a b : SeqRecord) : Prop :=
  b.reasons.inhibit = a.reasons.inhibit ∧ b.reasons.fault = a.reasons.fault

namespace Seq

theorem Keeps.sameSources {a b : SeqRecord} (h : Keeps a b) : a.SameSources b := by
  obtain ⟨-, -, -, hr, -⟩ := h
  exact ⟨by rw [hr], by rw [hr]⟩

theorem takeSet_sameSources (e : SeqEnv) (t : Option Int) (coupled : Bool) (dt : Int) (r : SeqRecord) :
    r.SameSources (takeSet e t coupled dt r).1 :=
  (takeSet_keeps e t coupled dt r).sameSources

theorem setCeiling_sameSources (e : SeqEnv) (v : Int) (r : SeqRecord) : r.SameSources (setCeiling e v r) := by
  unfold setCeiling
  split
  · exact ⟨rfl, rfl⟩
  · dsimp only
    split <;> exact ⟨rfl, rfl⟩

theorem promotedReason_sameSources (e : SeqEnv) (p : Promoted) (r : SeqRecord) :
    r.SameSources (promotedReason e p r) := by cases p <;> exact ⟨rfl, rfl⟩

theorem promotionExpiry_keeps (e : SeqEnv) (r : SeqRecord) : Keeps r (promotionExpiry e r) := by
  unfold promotionExpiry
  split <;> exact ⟨rfl, rfl, rfl, rfl, rfl⟩

theorem takePromotion_sameSources (e : SeqEnv) (p : Promoted) (r : SeqRecord) :
    r.SameSources (takePromotion e p r) := by
  have hp : ∀ q : SeqRecord, q.SameSources (promotedReason e p q) := promotedReason_sameSources e p
  have charging : r.SameSources (promotionExpiry e (entry e (promotedReason e p r))) := by
    obtain ⟨hi, hf⟩ := ((entry_keeps e _).trans (promotionExpiry_keeps e _)).sameSources
    exact ⟨hi.trans (hp r).1, hf.trans (hp r).2⟩
  have paused : r.SameSources (afterReasons e r.reasons (promotedReason e p (promotionExpiry e r))) := by
    obtain ⟨hi, hf⟩ := (afterReasons_keeps e r.reasons (promotedReason e p (promotionExpiry e r))).sameSources
    obtain ⟨gi, gf⟩ := (promotionExpiry_keeps e r).sameSources
    exact ⟨(hi.trans (hp _).1).trans gi, (hf.trans (hp _).2).trans gf⟩
  unfold takePromotion
  split
  · exact charging
  · exact charging
  · exact charging
  · exact paused
  · exact hp (clampTimers e r)
  all_goals exact hp r

end Seq

/-! ### What the shared operations do to the watched part -/

namespace State
variable (s : State)

@[simp] theorem setCounter_watched (c : Cell) (v : CounterRecord) : (s.setCounter c v).watched = s.watched := rfl
@[simp] theorem setAlloc_watched (v : Allocator) : (s.setAlloc v).watched = s.watched := rfl
@[simp] theorem setInput_watched (v : InputStage) : (s.setInput v).watched = s.watched := rfl
@[simp] theorem setHinge_watched (v : Hinge) : (s.setHinge v).watched = s.watched := rfl
@[simp] theorem setProt_watched (v : Protection) : (s.setProt v).watched = s.watched := rfl
@[simp] theorem setStore_watched (v : Store) : (s.setStore v).watched = s.watched := rfl
@[simp] theorem setLink_watched (v : Link) : (s.setLink v).watched = s.watched := rfl
@[simp] theorem setFresh_watched (v : Nat) : (s.setFresh v).watched = s.watched := rfl
@[simp] theorem notify_watched (p : Payload) : (s.notify p).watched = s.watched := rfl

@[simp] theorem setHanded_watched (h : Handed) :
    (s.setHanded h).watched = { s.watched with
      seqInhibit := h.seqInhibit, seqFault := h.seqFault
      seqSet := h.seqSet, seqPromotion := h.seqPromotion } := rfl

/-- What waits for the sequencers on their sets, promotions, inhibits and restrictions stays. -/
theorem setHanded_quiet {h : Handed} (hi : h.seqInhibit = s.handed.seqInhibit)
    (hf : h.seqFault = s.handed.seqFault) (hs : h.seqSet = s.handed.seqSet)
    (hp : h.seqPromotion = s.handed.seqPromotion) : (s.setHanded h).watched = s.watched := by
  rw [setHanded_watched, hi, hf, hs, hp]
  rfl

@[simp] theorem setPath_watched (c : Cell) (p : PathRecord) :
    (s.setPath c p).watched
      = { s.watched with restriction := s.watched.restriction.set c p.restriction } := by
  simp [watched, PerCell.map_set]

/-- A path's record changes with its restriction kept. -/
theorem setPath_quiet (c : Cell) {p : PathRecord} (h : p.restriction = (s.path.get c).restriction) :
    (s.setPath c p).watched = s.watched := by
  rw [setPath_watched, h, ← watched_restriction_get, PerCell.set_get]

@[simp] theorem recompute_watched (c : Cell) : (s.recompute c).watched = s.watched :=
  s.setPath_quiet c (PathRecord.take_restriction ..)

@[simp] theorem orderPath_watched (c : Cell) (o : Order) : (s.orderPath c o).watched = s.watched :=
  (recompute_watched _ c).trans (s.setPath_quiet c rfl)

@[simp] theorem hingeCapWritten_watched : s.hingeCapWritten.watched = s.watched := by
  rw [hingeCapWritten_eq]
  split
  · rfl
  · exact s.recompute_watched .far

@[simp] theorem receiverDiode_watched (r : Option Cell) : (s.receiverDiode r).watched = s.watched := by
  cases r with
  | none => rfl
  | some c => exact s.orderPath_watched c .diode

@[simp] theorem endTransferOnEvent_watched (cause : EndCause) :
    (s.endTransferOnEvent cause).watched = s.watched := by
  unfold endTransferOnEvent
  split
  · exact receiverDiode_watched _ _
  · rfl

@[simp] theorem moveInput_watched (new : InputState) : (s.moveInput new).watched = s.watched := by
  by_cases h : new = s.input.state
  · rw [h, moveInput_same]
  · rw [moveInput_eq s new h]
    split
    · rfl
    · split <;> rfl

@[simp] theorem setReasons_watched (new : SuspendReasons) : (s.setReasons new).watched = s.watched := by
  rw [setReasons_eq]
  dsimp only
  split
  · exact moveInput_watched _ _
  · split
    · exact moveInput_watched _ _
    · rfl

@[simp] theorem setFaults_watched (new : PerFault FaultRecord) : (s.setFaults new).watched = s.watched := rfl

@[simp] theorem notifyFaults_watched (ks : List FaultKind) : (s.notifyFaults ks).watched = s.watched := by
  rw [notifyFaults_eq]
  rfl

@[simp] theorem protectOn_watched (m : MeasSet) : (s.protectOn m).watched = s.watched := by
  have records := (notifyFaults_watched
    (s.setFaults (recordsAfterSet s.prot.record s.tables.protect s.alloc.frame.number m))
    (risingKinds s.prot.record s.tables.protect m)).trans (s.setFaults_watched _)
  unfold protectOn
  dsimp only
  split
  · exact (setHanded_quiet _ rfl rfl rfl rfl).trans records
  · exact records

@[simp] theorem takeFrame_watched (m : MeasSet) : (s.takeFrame m).watched = s.watched := by
  rw [takeFrame_frame]
  rfl

@[simp] theorem updateSeq_watched (c : Cell) (new : SeqRecord) :
    (s.updateSeq c new).watched = { s.watched with
      inhibited := s.watched.inhibited.set c new.reasons.inhibit
      faulted := s.watched.faulted.set c new.reasons.fault } := by
  rw [updateSeq_eq]
  simp [watched, PerCell.map_set]

/-- A sequencer's record changes with the pause reasons that other blocks bring kept. -/
theorem updateSeq_quiet (c : Cell) {new : SeqRecord} (h : (s.seq.get c).SameSources new) :
    (s.updateSeq c new).watched = s.watched := by
  obtain ⟨hi, hf⟩ := h
  rw [updateSeq_watched, hi, hf, ← watched_inhibited_get, ← watched_faulted_get, PerCell.set_get,
    PerCell.set_get]

@[simp] theorem setSeenOf_watched (c : Cell) (v : SeqSeen) :
    (s.setSeenOf c v).watched = { s.watched with seen := s.watched.seen.set c v } := rfl

@[simp] theorem expireNow_watched (c : Cell) : (s.expireNow c).watched = s.watched :=
  s.updateSeq_quiet c (Seq.expireIfDue_keeps _ _).sameSources

@[simp] theorem setCeiling_watched (v : Int) (c : Cell) : (s.setCeiling v c).watched = s.watched :=
  s.updateSeq_quiet c (Seq.setCeiling_sameSources _ v _)

/-- A set that is handled moves VC of what the sequencer holds alone. -/
theorem handleSet_watched (c : Cell) (m : MeasSet) :
    (s.handleSet c m).watched
      = { s.watched with seen := s.watched.seen.set c ((s.watched.seen.get c).onSet c m) } := by
  have update := updateSeq_quiet (s.setSeenOf c ((s.seen.get c).onSet c m)) c
    (Seq.takeSet_sameSources (s.seqEnvOn c m) (bandTemp m c s.folded) (s.coupledOn c m) m.dt (s.seq.get c))
  unfold handleSet
  dsimp only
  split
  · exact (setHanded_quiet _ rfl rfl rfl rfl).trans update
  · exact update

/-- A record that an event between sets gives. -/
theorem takeEventSeq_moves (c : Cell) (new : SeqRecord) :
    Moves { s.watched with
        inhibited := s.watched.inhibited.set c new.reasons.inhibit
        faulted := s.watched.faulted.set c new.reasons.fault }
      (s.takeEventSeq c new).watched := by
  unfold takeEventSeq
  rw [updateSeq_watched, setSeenOf_watched, ← watched_profile_get]
  exact (Move.holds _ c new.k).moves

/-- A record that an event between sets gives with the pause reasons that other blocks bring kept. -/
theorem takeEventSeq_moves_same (c : Cell) {new : SeqRecord} (h : (s.seq.get c).SameSources new) :
    Moves s.watched (s.takeEventSeq c new).watched := by
  have moves := s.takeEventSeq_moves c new
  rwa [← updateSeq_watched, s.updateSeq_quiet c h] at moves

/-! ### Tables -/

@[simp] theorem setProtectWords_watched (new : Words) : (s.setProtectWords new).watched = s.watched := rfl

@[simp] theorem force_watched (r : RecordId) (offset n : Nat) (new : Words) :
    (s.force r offset n new).watched = s.watched := by
  cases r
  case limits =>
    show (s.forceLimits offset n new).watched = s.watched
    unfold forceLimits
    dsimp only
    split
    · exact hingeCapWritten_watched _
    · rfl
  case protect => exact s.setProtectWords_watched new
  all_goals rfl

@[simp] theorem bring_watched (r : RecordId) (offset : Nat) (words : List Word) :
    (s.bring r offset words).watched = s.watched := s.force_watched ..

/-- New copies of a table 1..3 move its active words alone. -/
theorem setCopies_watched (r : RecordId) (v : Copies) :
    (s.setCopies r v).watched = { s.watched with
      profile := (s.setCopies r v).watched.profile, bands := (s.setCopies r v).watched.bands } := by
  cases r <;> rfl

/-- Copies of a table 1..3 with the active one kept. -/
theorem setCopies_quiet {r : RecordId} {k v : Copies} (h : s.copiesOf r = some k)
    (ha : v.active = k.active) : (s.setCopies r v).watched = s.watched := by
  cases r <;> cases h <;> simp [setCopies, watched, PerCell.map, ha]

/-- A promotion attempt moves the watched part by its promotion alone (R47, R51). -/
theorem promote_moves {r : RecordId} {k₀ k : Copies} (source : ProfileSource) (hrun : s.phase = .running)
    (h : s.copiesOf r = some k₀) (ha : k.active = k₀.active) :
    Moves s.watched (s.promote r k source).watched := by
  unfold promote
  dsimp only
  split
  · rw [notify_watched]
    cases r with
    | profileN => exact (Move.promotesProfile s.watched .near k.pending hrun).moves
    | profileF => exact (Move.promotesProfile s.watched .far k.pending hrun).moves
    | bands => exact (Move.promotesBands s.watched k.pending hrun).moves
    | limits | balance | protect | calibration | gauge => cases h
  · exact Moves.of_eq (s.setCopies_quiet h ha)

/-! ### Inhibit sets -/

/-- An inhibit set that becomes the one given. -/
theorem setInhibitSet_moves (c : Cell) (new : Byte) : Moves s.watched (s.setInhibitSet c new).watched := by
  by_cases h : new = s.inhibit.get c
  · have same : s.setInhibitSet c new = s := h ▸ s.setInhibitSet_same c
    exact Moves.of_eq (congrArg watched same)
  · rw [setInhibitSet_eq s c new h]
    exact (Move.inhibits s.watched c new).moves

/-! ### Targets -/

/-- Something done to each cell of a target moves the watched part as it does for each cell. -/
theorem forEach_moves (cells : List Cell) {f : Cell → State → State}
    (h : ∀ c u, Moves u.watched (f c u).watched) : Moves s.watched (s.forEach cells f).watched := by
  unfold forEach
  induction cells generalizing s with
  | nil => exact Moves.refl _
  | cons c cells ih => exact (h c s).trans (ih (f c s))

end State

theorem Copies.write_active (k : Copies) (fields : List Field) (offset : Nat) (words : List Word) :
    (k.write fields offset words).active = k.active := by
  unfold Copies.write
  split <;> rfl

@[simp] theorem Answer.reply_watched (a : Answer) (kind tag : Byte) :
    (a.reply kind tag).watched = a.state.watched := rfl

/-! ### The revert and the loads -/

namespace State
variable (s : State)

@[simp] theorem revertInput_watched : s.revertInput.watched = s.watched := by
  unfold revertInput
  split
  · exact setReasons_watched s _
  · exact setReasons_watched _ _

@[simp] theorem revertTransfer_watched (cause : EndCause) : (s.revertTransfer cause).watched = s.watched := by
  unfold revertTransfer
  dsimp only
  split
  · rfl
  · exact endTransferOnEvent_watched _ cause

/-- An event taken from what waits for the transfer leaves what waits for the sequencers. -/
theorem takeEvent_watched {e : TransferEvent} {h : Handed} (ht : s.handed.takeEvent e = some h) :
    (s.setHanded h).watched = s.watched := by
  unfold Handed.takeEvent at ht
  split at ht
  · split at ht <;> cases ht
    rfl
  · split at ht <;> cases ht
    rfl

@[simp] theorem revertTransferAfterGrant_watched (first : Bool) :
    (s.revertTransferAfterGrant first).watched = s.watched := by
  unfold revertTransferAfterGrant
  split
  · rename_i h ht
    have taken : s.handed.takeEvent .inputGranted = some h := by
      cases first
      · cases ht
      · exact ht
    rw [revertTransfer_watched, s.takeEvent_watched taken]
  · exact s.revertTransfer_watched .host

@[simp] theorem revertInputAndTransfer_watched : s.revertInputAndTransfer.watched = s.watched := by
  unfold revertInputAndTransfer
  split
  · rw [revertTransferAfterGrant_watched, revertInput_watched]
  · rw [revertInput_watched, revertTransfer_watched]

@[simp] theorem revertCeilings_watched : s.revertCeilings.watched = s.watched := by
  unfold revertCeilings
  rw [setCeiling_watched, setCeiling_watched]

/-- A revert moves the watched part by the inhibit sets alone (R187, R205). -/
theorem revert_moves : Moves s.watched s.revert.watched := by
  have sets (u : State) : Moves u.watched u.revertInhibits.watched :=
    (u.setInhibitSet_moves .near 0).trans (setInhibitSet_moves _ .far 0)
  have h := sets s.revertInputAndTransfer.revertCeilings
  rw [revertCeilings_watched, revertInputAndTransfer_watched] at h
  unfold revert
  dsimp only
  rwa [setFresh_watched]

@[simp] theorem discardPending_watched : s.discardPending.watched = s.watched := rfl

theorem takeDefaults_watched (r : RecordId) :
    (s.takeDefaults r).watched = { s.watched with
      profile := (s.takeDefaults r).watched.profile, bands := (s.takeDefaults r).watched.bands } := by
  unfold takeDefaults
  split
  · exact s.setCopies_watched r _
  · simp only [force_watched]

end State

/-- One record of the power-on load moves the active tables alone. -/
theorem LoadProgress.take_watched (p : LoadProgress) (r : RecordId) :
    (p.take r).state.watched = { p.state.watched with
      profile := (p.take r).state.watched.profile, bands := (p.take r).state.watched.bands } := by
  unfold LoadProgress.take
  dsimp only
  split
  · split
    · split
      · exact p.state.setCopies_watched r _
      · exact p.state.takeDefaults_watched r
    · simp only [State.bring_watched]
  · exact p.state.takeDefaults_watched r

/-- The records of the power-on load move the active tables alone. -/
theorem LoadProgress.foldl_watched (rs : List RecordId) (p : LoadProgress) :
    (rs.foldl LoadProgress.take p).state.watched = { p.state.watched with
      profile := (rs.foldl LoadProgress.take p).state.watched.profile
      bands := (rs.foldl LoadProgress.take p).state.watched.bands } := by
  induction rs generalizing p with
  | nil => rfl
  | cons r rs ih =>
    rw [List.foldl_cons, ih, p.take_watched r]

/-- One record of a LOAD moves the watched part by its promotion alone, and the part stays open. -/
theorem LoadOutcome.take_moves (o : LoadOutcome) (r : RecordId) (hrun : o.state.phase = .running) :
    Moves o.state.watched (o.take r).state.watched := by
  unfold LoadOutcome.take
  dsimp only
  split
  · split
    · rename_i k hk
      exact o.state.promote_moves .load hrun hk (k.write_active _ 0 _)
    · exact Moves.of_eq (o.state.bring_watched r 0 _)
  · exact Moves.refl _

theorem LoadOutcome.foldl_moves (rs : List RecordId) (o : LoadOutcome) (hrun : o.state.phase = .running) :
    Moves o.state.watched (rs.foldl LoadOutcome.take o).state.watched := by
  induction rs generalizing o with
  | nil => exact Moves.refl _
  | cons r rs ih =>
    have hstill : (o.take r).state.phase = .running := by rw [o.take_frame r]; exact hrun
    exact (o.take_moves r hrun).trans (ih (o.take r) hstill)

end Machine
end Sys2Proof
end

section
/-! PROOFS. What every command but POWER_ON_RESET and ROUND_COMPLETION does to the watched part, as moves; and an induction over the steps of the part. -/

namespace Sys2Proof.Machine

/-- Whatever state a command gives, the watched part has come to it by moves. -/
def Moving (s : State) (o : Result) : Prop := ∀ t, o = .next t → Moves s.watched t.watched

namespace Moving
variable {s t : State}

theorem next (h : Moves s.watched t.watched) : Moving s (.next t) := by
  intro u hu
  injection hu with hu
  exact hu ▸ h

theorem quiet (h : t.watched = s.watched) : Moving s (.next t) := next (Moves.of_eq h)

theorem stay : Moving s (.next s) := quiet rfl

/-- A request moves the watched part as carrying it out does (R199). -/
theorem request {k : RequestKind} {tag : Byte} {act : State → Answer}
    (h : s.phase = .running → Moves s.watched (act s).state.watched) : Moving s (s.request k tag act) := by
  by_cases hrun : s.phase = .running
  · rw [s.request_running k tag act hrun]
    refine next ?_
    rw [Answer.reply_watched]
    exact h hrun
  · rw [s.request_closed k tag act hrun]
    exact stay

/-- A request whose answer leaves the watched part. -/
theorem request_quiet {k : RequestKind} {tag : Byte} {act : State → Answer}
    (h : (act s).state.watched = s.watched) : Moving s (s.request k tag act) :=
  request fun _ => Moves.of_eq h

end Moving

/-! ### Measurement -/

/-- ROUND_TIMER_EXPIRY with the timer run out and no round in flight (R4). -/
theorem execRoundTimerExpiry_due {s : State} (ht : s.meas.roundTimer = some 0)
    (hf : s.meas.inFlight = none) :
    execRoundTimerExpiry s = .next { s with meas := { s.meas with
      roundTimer := some (10 * (s.tables.limits.getD 5 0).toNat)
      inFlight := some (s.tables.limits.getD 5 0).toNat } } := by
  simp only [execRoundTimerExpiry, ht, hf, timeUp]
  rfl

/-- ROUND_TIMER_EXPIRY with time left on the timer, or with a round in flight (log 24). -/
theorem execRoundTimerExpiry_early {s : State}
    (h : s.meas.roundTimer ≠ some 0 ∨ s.meas.inFlight ≠ none) : execRoundTimerExpiry s = .next s := by
  unfold execRoundTimerExpiry
  refine if_neg fun hdue => ?_
  rw [Bool.and_eq_true, timeUp_iff, Option.isNone_iff_eq_none] at hdue
  obtain ⟨ht, hf⟩ := hdue
  exact h.elim (· ht) (· hf)

/-- ROUND_COMPLETION with a round in flight (R7). -/
theorem execRoundCompletion_due {s : State} {dt : Nat} (v : PerChannel Conversion)
    (h : s.meas.inFlight = some dt) :
    execRoundCompletion v s = .next { s with
      meas := s.meas.complete s.tables.cal dt v
      handed := s.handed.publish ((s.meas.complete s.tables.cal dt v).published dt) } := by
  simp only [execRoundCompletion, h]
  rfl

/-- ROUND_COMPLETION with no round in flight (R6). -/
theorem execRoundCompletion_idle {s : State} (v : PerChannel Conversion) (h : s.meas.inFlight = none) :
    execRoundCompletion v s = .next s := by
  simp only [execRoundCompletion, h]

section
variable (s : State)

theorem execRoundTimerExpiry_moving : Moving s (execRoundTimerExpiry s) := by
  unfold execRoundTimerExpiry
  split
  · exact .next (Move.startsRound s.watched _ _).moves
  · exact .stay

/-! ### Power-on -/

theorem startSequencers_watched (u : State) :
    (u.startSequencers.setPhase .loaded).watched = { u.watched with
      phase := .loaded
      seen := ⟨{ u.watched.seen.near with prof := u.watched.profile.near, bands := u.watched.bands },
        { u.watched.seen.far with prof := u.watched.profile.far, bands := u.watched.bands }⟩ } := rfl

theorem execPowerOnLoad_moving : Moving s (execPowerOnLoad s) := by
  have brought : s.powerOnLoad.state.watched = { s.watched with
      profile := s.powerOnLoad.state.watched.profile
      bands := s.powerOnLoad.state.watched.bands } := LoadProgress.foldl_watched RecordId.all ⟨s, []⟩
  unfold execPowerOnLoad
  split
  · rename_i hreset
    refine .next ?_
    rw [startSequencers_watched, State.setStore_watched, brought]
    exact (Move.loads s.watched _ _ hreset).moves
  · exact .stay

theorem execPowerOnLoadCompletion_moving : Moving s (execPowerOnLoadCompletion s) := by
  unfold execPowerOnLoadCompletion
  split
  · exact .next (Move.opens s.watched _).moves
  · exact .stay

/-! ### Counters and sequencers -/

theorem execCounterSetSteps_moving (c : Cell) : Moving s (execCounterSetSteps c s) := by
  unfold execCounterSetSteps
  split
  · exact .quiet rfl
  · exact .stay

theorem execFullMark_moving (c : Cell) : Moving s (execFullMark c s) := by
  unfold execFullMark
  split
  · dsimp only
    split
    · exact .quiet rfl
    · exact .quiet rfl
  · exact .stay

/-- The oldest set that waits is taken and handled. -/
theorem handleOldest_moves {c : Cell} {m : MeasSet} {rest : List MeasSet}
    (h : s.handed.seqSet.get c = m :: rest) :
    Moves s.watched ((s.dropSeqSet c rest).handleSet c m).watched := by
  rw [State.handleSet_watched]
  exact (Move.takesSet s.watched c m rest h).moves

theorem execSequencerSetHandling_moving (c : Cell) : Moving s (execSequencerSetHandling c s) := by
  unfold execSequencerSetHandling
  split
  · rename_i hset
    exact .next (handleOldest_moves s hset)
  · exact .stay

theorem execSafetyTimerExpiry_moving (c : Cell) : Moving s (execSafetyTimerExpiry c s) := by
  have expires : Moving s (.next (s.expireNow c)) := .quiet (s.expireNow_watched c)
  unfold execSafetyTimerExpiry
  split
  · rename_i hset
    split
    · exact .next (handleOldest_moves s hset)
    · exact expires
  · exact expires

theorem execSeqInputGranted_moving (c : Cell) : Moving s (execSeqInputGranted c s) := by
  unfold execSeqInputGranted
  split
  · rename_i rest _
    refine .next ((s.dropSeqSignal c rest).takeEventSeq_moves_same c ?_)
    split
    · exact (Seq.entryReset_keeps _ _).sameSources
    · exact ⟨rfl, rfl⟩
  · exact .stay
  · exact .stay

theorem execSeqInputWithdrawn_moving (c : Cell) : Moving s (execSeqInputWithdrawn c s) := by
  unfold execSeqInputWithdrawn
  split
  · rename_i rest _
    dsimp only
    split
    · exact .quiet rfl
    · exact .quiet ((s.dropSeqSignal c rest).updateSeq_quiet c ⟨rfl, rfl⟩)
  · exact .stay
  · exact .stay

/-- The INHIBIT or FAULT reason that an event brings, with what waits for the sequencer after it. -/
theorem afterReasons_moves (c : Cell) (h : Handed) (e : SeqEnv) (old : PauseReasons) (new : SeqRecord) :
    Moves { (s.setHanded h).watched with
        inhibited := s.watched.inhibited.set c new.reasons.inhibit
        faulted := s.watched.faulted.set c new.reasons.fault }
      ((s.setHanded h).takeEventSeq c (Seq.afterReasons e old new)).watched := by
  obtain ⟨hi, hf⟩ := (Seq.afterReasons_keeps e old new).sameSources
  have moves := (s.setHanded h).takeEventSeq_moves c (Seq.afterReasons e old new)
  rwa [hi, hf] at moves

theorem execSeqInhibitEvent_moving (c : Cell) : Moving s (execSeqInhibitEvent c s) := by
  have hf : s.watched.faulted.set c (s.seq.get c).reasons.fault = s.watched.faulted := by
    rw [← State.watched_faulted_get, PerCell.set_get]
  unfold execSeqInhibitEvent
  split
  · rename_i b rest hwait
    have event := afterReasons_moves s c { s.handed with seqInhibit := s.handed.seqInhibit.set c rest }
      (s.seqEnv c) (s.seq.get c).reasons
      { s.seq.get c with reasons := { (s.seq.get c).reasons with inhibit := b } }
    rw [hf] at event
    exact .next ((Move.takesInhibit s.watched c b rest hwait).moves.trans event)
  · exact .stay

theorem execSeqFaultReasonUpdate_moving (c : Cell) : Moving s (execSeqFaultReasonUpdate c s) := by
  have hi : s.watched.inhibited.set c (s.seq.get c).reasons.inhibit = s.watched.inhibited := by
    rw [← State.watched_inhibited_get, PerCell.set_get]
  unfold execSeqFaultReasonUpdate
  split
  · rename_i x rest hwait
    have event := afterReasons_moves s c { s.handed with seqFault := s.handed.seqFault.set c rest }
      (s.seqEnv c) (s.seq.get c).reasons
      { s.seq.get c with reasons := { (s.seq.get c).reasons with fault := x.blocksCharge } }
    rw [hi] at event
    exact .next ((Move.takesFault s.watched c x rest hwait).moves.trans event)
  · exact .stay

theorem execSeqPromotion_moving (c : Cell) : Moving s (execSeqPromotion c s) := by
  unfold execSeqPromotion
  split
  · rename_i p rest hwait
    have took := (Move.takesPromotion s.watched c p rest hwait).moves
    have event := State.takeEventSeq_moves_same
      ((s.setHanded { s.handed with seqPromotion := s.handed.seqPromotion.set c rest }).setSeenOf c
        ((s.seen.get c).onPromotion p)) c (Seq.takePromotion_sameSources (s.seqEnvHeld c) p (s.seq.get c))
    exact .next (took.trans event)
  · exact .stay

/-! ### Protection, the allocator and the paths -/

theorem execProtectionSetReaction_moving : Moving s (execProtectionSetReaction s) := by
  unfold execProtectionSetReaction
  split
  · exact .quiet (State.protectOn_watched _ _)
  · exact .stay

theorem execOvercurrentTrip_moving (c : Cell) (current : Int) :
    Moving s (execOvercurrentTrip c current s) := by
  unfold execOvercurrentTrip
  dsimp only
  split
  · exact .quiet (s.setPath_quiet c rfl)
  · exact .stay

theorem execTripRearm_moving (c : Cell) (current : Int) : Moving s (execTripRearm c current s) := by
  unfold execTripRearm
  split
  · exact .stay
  · exact .quiet (s.setPath_quiet c rfl)

theorem execRetryTimerExpiry_moving (c : Cell) : Moving s (execRetryTimerExpiry c s) := by
  unfold execRetryTimerExpiry
  split
  · exact .quiet rfl
  · exact .stay

theorem execAllocationFrame_moving : Moving s (execAllocationFrame s) := by
  unfold execAllocationFrame
  split
  · exact .quiet (State.takeFrame_watched _ _)
  · exact .stay

theorem execTransferEventEnd_moving (e : TransferEvent) : Moving s (execTransferEventEnd e s) := by
  unfold execTransferEventEnd
  split
  · rename_i h htaken
    have quiet := s.takeEvent_watched htaken
    dsimp only
    split
    · exact .quiet ((State.endTransferOnEvent_watched _ _).trans quiet)
    · exact .quiet quiet
  · exact .stay

theorem execGrantsClearedOnWithdrawal_moving : Moving s (execGrantsClearedOnWithdrawal s) := by
  unfold execGrantsClearedOnWithdrawal
  split
  · exact .quiet rfl
  · exact .stay
  · exact .stay

theorem execFarGrantHingeCap_moving : Moving s (execFarGrantHingeCap s) := by
  unfold execFarGrantHingeCap
  split
  · exact .quiet rfl
  · exact .stay

theorem execPathOrderDelivery_moving (c : Cell) : Moving s (execPathOrderDelivery c s) := by
  unfold execPathOrderDelivery
  split
  · dsimp only
    split
    · exact .quiet rfl
    · exact .quiet (State.orderPath_watched _ c _)
  · exact .stay

theorem execPathRestrictionChange_moving (c : Cell) : Moving s (execPathRestrictionChange c s) := by
  unfold execPathRestrictionChange
  split
  · rename_i b rest hwait
    dsimp only
    split
    · exact .quiet rfl
    · refine .next ?_
      rw [State.setHanded_watched, State.recompute_watched, State.setPath_watched]
      exact (Move.restricts s.watched c b.restriction).moves
  · exact .stay

theorem execRampTimerExpiry_moving (c : Cell) : Moving s (execRampTimerExpiry c s) := by
  unfold execRampTimerExpiry
  split
  · exact .quiet (s.setPath_quiet c rfl)
  · exact .stay

theorem execPathInputGranted_moving (c : Cell) : Moving s (execPathInputGranted c s) := by
  unfold execPathInputGranted
  split
  · exact .quiet (State.orderPath_watched _ c _)
  · exact .stay
  · exact .stay

theorem execPathInputWithdrawn_moving (c : Cell) : Moving s (execPathInputWithdrawn c s) := by
  unfold execPathInputWithdrawn
  split
  · exact .quiet (State.orderPath_watched _ c _)
  · exact .stay
  · exact .stay

theorem execPathHingeUnsettled_moving : Moving s (execPathHingeUnsettled s) := by
  unfold execPathHingeUnsettled
  split
  · exact .quiet (State.orderPath_watched _ .far _)
  · exact .stay

/-! ### The input stage and the hinge monitor -/

theorem execInputSagDerateStep_moving : Moving s (execInputSagDerateStep s) := by
  unfold execInputSagDerateStep
  split
  · dsimp only
    split
    · exact .quiet rfl
    · exact .quiet rfl
  · exact .stay

theorem execDieSuspendReasonChange_moving : Moving s (execDieSuspendReasonChange s) := by
  unfold execDieSuspendReasonChange
  split
  · exact .quiet (State.setReasons_watched _ _)
  · exact .stay

theorem execAttachFilterExpiry_moving (k : Comparator) : Moving s (execAttachFilterExpiry k s) := by
  unfold execAttachFilterExpiry
  split
  · exact .quiet (State.moveInput_watched _ _)
  · exact .stay

theorem execQualificationExpiry_moving : Moving s (execQualificationExpiry s) := by
  unfold execQualificationExpiry
  split
  · exact .quiet (State.moveInput_watched _ _)
  · exact .stay

theorem execFoldRawChange_moving (f : FoldSense) (active : Bool) :
    Moving s (execFoldRawChange f active s) := by
  unfold execFoldRawChange
  dsimp only
  split
  · exact .stay
  · split
    · split
      · exact .quiet rfl
      · exact .quiet rfl
    · exact .quiet rfl

theorem execHingeFilterExpiry_moving (f : FoldSense) : Moving s (execHingeFilterExpiry f s) := by
  unfold execHingeFilterExpiry
  split
  · dsimp only
    split
    · exact .quiet rfl
    · exact .quiet rfl
  · exact .stay

theorem execSettleTimerExpiry_moving : Moving s (execSettleTimerExpiry s) := by
  unfold execSettleTimerExpiry
  split
  · exact .quiet rfl
  · exact .stay

theorem execStartupSampleExpiry_moving : Moving s (execStartupSampleExpiry s) := by
  unfold execStartupSampleExpiry
  split
  · exact .quiet rfl
  · exact .stay

/-! ### The store and the link -/

theorem execRecordCompletion_moving : Moving s (execRecordCompletion s) := by
  unfold execRecordCompletion
  split
  · dsimp only
    split
    · exact .quiet rfl
    · exact .quiet rfl
  · exact .stay

theorem execSupervisorExpiry_moving : Moving s (execSupervisorExpiry s) := by
  have reverts := ((s.setLink { s.link with supervisor := none }).notify .reverted).revert_moves
  rw [State.notify_watched, State.setLink_watched] at reverts
  unfold execSupervisorExpiry
  split
  · exact .next reverts
  · exact .stay

theorem execBadRequestFrame_moving (bytes : List Byte) : Moving s (execBadRequestFrame bytes s) := by
  unfold execBadRequestFrame
  split
  · exact .quiet rfl
  · exact .stay

theorem execUnknownRequest_moving (kind tag : Byte) (body : List Byte) :
    Moving s (execUnknownRequest kind tag body s) := by
  unfold execUnknownRequest
  split
  · exact .quiet rfl
  · exact .stay

theorem execLengthError_moving (kind tag : Byte) (body : List Byte) :
    Moving s (execLengthError kind tag body s) := by
  unfold execLengthError
  split
  · exact .quiet rfl
  · exact .stay

theorem execReadReply_moving (count : Nat) : Moving s (execReadReply count s) := by
  unfold execReadReply
  split
  · exact .quiet rfl
  · exact .stay

end

end Sys2Proof.Machine
end

section
/-! PROOFS. What carrying out each request does to the watched part, and with the other commands what every command does; an induction over the steps of the part. -/

namespace Sys2Proof.Machine

namespace State
variable (s : State)

/-! ### Requests that leave the state -/

theorem measure_state (sect : Byte) : (s.measure sect).state = s := by
  unfold measure
  split
  · rfl
  · split <;> rfl

theorem cellRecord_state (cell sect : Byte) : (s.cellRecord cell sect).state = s := by
  unfold cellRecord
  split
  · unfold cellSection
    split
    · rfl
    · split
      · rfl
      · split <;> rfl
  · rfl

theorem faults_state (sect : Byte) : (s.faults sect).state = s := by
  unfold faults
  split
  · rfl
  · split <;> rfl

theorem readSuspend_state (func : Byte) : (s.readSuspend func).state = s := by
  unfold readSuspend
  split <;> rfl

theorem readBalance_state (func : Byte) : (s.readBalance func).state = s := by
  unfold readBalance
  split <;> rfl

theorem readMask_state (func : Byte) : (s.readMask func).state = s := by
  unfold readMask
  split <;> rfl

theorem inhibitTest_state (func target mask : Byte) : (s.inhibitTest func target mask).state = s := by
  unfold inhibitTest
  split
  · split <;> rfl
  · rfl

theorem tableRead_state (id offset count : Byte) : (s.tableRead id offset count).state = s := by
  unfold tableRead
  split
  · rfl
  · split <;> rfl

/-! ### Requests on the cells -/

theorem ceiling_moves (target : Byte) (value : Word) :
    Moves s.watched (s.ceiling target value).state.watched := by
  unfold ceiling
  split
  · exact s.forEach_moves _ fun c u => Moves.of_eq (u.setCeiling_watched _ c)
  · exact Moves.refl _

theorem gaugeSeed_moves (target : Byte) : Moves s.watched (s.gaugeSeed target).state.watched := by
  unfold gaugeSeed
  split
  · exact s.forEach_moves _ fun c u => Moves.of_eq rfl
  · exact Moves.refl _

theorem restartCell_moves (c : Cell) : Moves s.watched (s.restartCell c).watched :=
  s.takeEventSeq_moves_same c (Seq.entryReset_keeps _ _).sameSources

theorem chargeRestart_moves (target : Byte) : Moves s.watched (s.chargeRestart target).state.watched := by
  unfold chargeRestart
  split
  · split
    · exact Moves.refl _
    · exact s.forEach_moves _ fun c u => u.restartCell_moves c
  · exact Moves.refl _

theorem acceptInhibit_moves (cells : List Cell) (f : Byte → Byte) :
    Moves s.watched (s.acceptInhibit cells f).state.watched :=
  s.forEach_moves cells fun c u => u.setInhibitSet_moves c _

theorem claim_moves (cells : List Cell) (mask blocking : Byte) :
    Moves s.watched (s.claim cells mask blocking).state.watched := by
  unfold claim
  split
  · exact s.acceptInhibit_moves cells _
  · exact Moves.refl _

theorem placing_moves (target mask : Byte) {act : List Cell → Answer}
    (h : ∀ cells, Moves s.watched (act cells).state.watched) :
    Moves s.watched (s.placing target mask act).state.watched := by
  unfold placing
  split
  · split
    · exact Moves.refl _
    · exact h _
  · exact Moves.refl _

theorem inhibitClear_moves (target mask : Byte) :
    Moves s.watched (s.inhibitClear target mask).state.watched := by
  unfold inhibitClear
  split
  · exact s.acceptInhibit_moves _ _
  · exact Moves.refl _

/-! ### Requests on the faults, the tables, the store and the link -/

theorem faultClear_watched (mask : Word) : (s.faultClear mask).state.watched = s.watched := by
  unfold faultClear
  split <;> rfl

theorem writeRecord_moves (final : Bool) (id offset : Byte) (r : RecordId) (words : List Word)
    (hrun : s.phase = .running) : Moves s.watched (s.writeRecord final id offset r words).state.watched := by
  unfold writeRecord
  split
  · exact Moves.refl _
  · split
    · rename_i k hk
      have active := k.write_active (s.fieldsOf r) offset.toNat words
      split
      · exact s.promote_moves .write hrun hk active
      · exact Moves.of_eq (s.setCopies_quiet hk active)
    · exact Moves.of_eq (s.bring_watched r _ words)

theorem tableWrite_moves (final : Bool) (id offset flags : Byte) (words : List Word)
    (hrun : s.phase = .running) : Moves s.watched (s.tableWrite final id offset flags words).state.watched := by
  unfold tableWrite
  split
  · exact Moves.refl _
  · split
    · exact Moves.refl _
    · split
      · exact s.writeRecord_moves final id offset _ words hrun
      all_goals exact Moves.refl _

theorem storeRequest_watched (mask : Word) : (s.storeRequest mask).state.watched = s.watched := by
  unfold storeRequest
  split
  · rfl
  · show (s.startStore (recordsIn mask)).watched = s.watched
    unfold startStore
    split <;> rfl

theorem loadRequest_moves (mask : Word) (hrun : s.phase = .running) :
    Moves s.watched (s.loadRequest mask).state.watched := by
  unfold loadRequest
  split
  · exact Moves.refl _
  · exact LoadOutcome.foldl_moves (recordsIn mask) ⟨s, [], [], []⟩ hrun

theorem cancelStore_watched : s.cancelStore.state.watched = s.watched := by
  unfold cancelStore
  split <;> rfl

theorem writeMask_watched (enabled : Word) : (s.writeMask enabled).state.watched = s.watched := by
  unfold writeMask
  split <;> rfl

theorem softReset_moves : Moves s.watched s.softReset.state.watched := by
  have reverts := s.reopenQueue.revert_moves
  have opened : s.reopenQueue.watched = s.watched := rfl
  unfold softReset
  rw [opened, ← s.reopenQueue.revert.discardPending_watched] at reverts
  exact reverts

end State

/-! ### Every command -/

section
variable (s : State) (tag : Byte)

theorem execIdentify_moving : Moving s (execIdentify tag s) := by
  unfold execIdentify
  exact .request_quiet rfl

theorem execStatus_moving : Moving s (execStatus tag s) := by
  unfold execStatus
  exact .request_quiet rfl

theorem execAllocation_moving : Moving s (execAllocation tag s) := by
  unfold execAllocation
  exact .request_quiet rfl

end

/-- Every command but POWER_ON_RESET and ROUND_COMPLETION moves the watched part by the moves alone. -/
theorem exec_moving (s : State) {i : Instr} (hreset : i ≠ .powerOnReset)
    (hround : ∀ v, i ≠ .roundCompletion v) : Moving s (exec i s) := by
  cases i with
  | powerOnReset => exact absurd rfl hreset
  | roundCompletion v => exact absurd rfl (hround v)
  | powerOnLoad => exact execPowerOnLoad_moving s
  | powerOnLoadCompletion => exact execPowerOnLoadCompletion_moving s
  | roundTimerExpiry => exact execRoundTimerExpiry_moving s
  | counterSetSteps c => exact execCounterSetSteps_moving s c
  | fullMark c => exact execFullMark_moving s c
  | sequencerSetHandling c => exact execSequencerSetHandling_moving s c
  | safetyTimerExpiry c => exact execSafetyTimerExpiry_moving s c
  | seqInputGranted c => exact execSeqInputGranted_moving s c
  | seqInputWithdrawn c => exact execSeqInputWithdrawn_moving s c
  | seqInhibitEvent c => exact execSeqInhibitEvent_moving s c
  | seqFaultReasonUpdate c => exact execSeqFaultReasonUpdate_moving s c
  | seqPromotion c => exact execSeqPromotion_moving s c
  | protectionSetReaction => exact execProtectionSetReaction_moving s
  | inputSagDerateStep => exact execInputSagDerateStep_moving s
  | allocationFrame => exact execAllocationFrame_moving s
  | transferEventEnd e => exact execTransferEventEnd_moving s e
  | pathOrderDelivery c => exact execPathOrderDelivery_moving s c
  | pathRestrictionChange c => exact execPathRestrictionChange_moving s c
  | rampTimerExpiry c => exact execRampTimerExpiry_moving s c
  | pathInputGranted c => exact execPathInputGranted_moving s c
  | pathInputWithdrawn c => exact execPathInputWithdrawn_moving s c
  | pathHingeUnsettled => exact execPathHingeUnsettled_moving s
  | grantsClearedOnWithdrawal => exact execGrantsClearedOnWithdrawal_moving s
  | farGrantHingeCap => exact execFarGrantHingeCap_moving s
  | overcurrentTrip c current => exact execOvercurrentTrip_moving s c current
  | tripRearm c current => exact execTripRearm_moving s c current
  | retryTimerExpiry c => exact execRetryTimerExpiry_moving s c
  | dieSuspendReasonChange => exact execDieSuspendReasonChange_moving s
  | comparatorRawChange vbus => exact .quiet rfl
  | attachFilterExpiry k => exact execAttachFilterExpiry_moving s k
  | qualificationExpiry => exact execQualificationExpiry_moving s
  | foldRawChange f active => exact execFoldRawChange_moving s f active
  | hingeFilterExpiry f => exact execHingeFilterExpiry_moving s f
  | settleTimerExpiry => exact execSettleTimerExpiry_moving s
  | startupSampleExpiry => exact execStartupSampleExpiry_moving s
  | recordCompletion => exact execRecordCompletion_moving s
  | supervisorExpiry => exact execSupervisorExpiry_moving s
  | emptyWrite => exact .stay
  | badRequestFrame bytes => exact execBadRequestFrame_moving s bytes
  | unknownRequest kind tag body => exact execUnknownRequest_moving s kind tag body
  | lengthError kind tag body => exact execLengthError_moving s kind tag body
  | readReply count => exact execReadReply_moving s count
  | identify tag => exact execIdentify_moving s tag
  | status tag => exact execStatus_moving s tag
  | measure tag sect => exact .request_quiet (congrArg State.watched (s.measure_state sect))
  | cell tag cell sect => exact .request_quiet (congrArg State.watched (s.cellRecord_state cell sect))
  | allocation tag => exact execAllocation_moving s tag
  | faults tag sect => exact .request_quiet (congrArg State.watched (s.faults_state sect))
  | inputLimit tag ilim vfloor => exact .request_quiet rfl
  | inputSuspendRead tag func => exact .request_quiet (congrArg State.watched (s.readSuspend_state func))
  | inputSuspendSuspend tag => exact .request_quiet (s.setReasons_watched _)
  | inputSuspendResume tag => exact .request_quiet (s.setReasons_watched _)
  | ceiling tag target value => exact .request fun _ => s.ceiling_moves target value
  | inhibitSelect tag target mask =>
    exact .request fun _ => s.placing_moves target mask fun cells => s.claim_moves cells mask _
  | inhibitSet tag target mask =>
    exact .request fun _ => s.placing_moves target mask fun cells => s.acceptInhibit_moves cells _
  | inhibitClear tag target mask => exact .request fun _ => s.inhibitClear_moves target mask
  | inhibitTest tag func target mask =>
    exact .request_quiet (congrArg State.watched (s.inhibitTest_state func target mask))
  | inhibitEmptySelect tag target mask =>
    exact .request fun _ => s.placing_moves target mask fun cells => s.claim_moves cells mask _
  | faultClear tag mask => exact .request_quiet (s.faultClear_watched mask)
  | chargeRestart tag target => exact .request fun _ => s.chargeRestart_moves target
  | gaugeSeed tag target => exact .request fun _ => s.gaugeSeed_moves target
  | balanceRead tag func => exact .request_quiet (congrArg State.watched (s.readBalance_state func))
  | balanceEnable tag => exact .request_quiet rfl
  | balanceDisable tag => exact .request_quiet (State.endTransferOnEvent_watched _ .host)
  | balanceCancel tag => exact .request_quiet (s.endTransferOnEvent_watched .host)
  | tableRead tag id offset count =>
    exact .request_quiet (congrArg State.watched (s.tableRead_state id offset count))
  | tableWrite tag id offset flags words =>
    exact .request fun hrun => s.tableWrite_moves false id offset flags words hrun
  | tableWriteFinal tag id offset flags words =>
    exact .request fun hrun => s.tableWrite_moves true id offset flags words hrun
  | store tag mask => exact .request_quiet (s.storeRequest_watched mask)
  | load tag mask => exact .request fun hrun => s.loadRequest_moves mask hrun
  | storeCancel tag => exact .request_quiet s.cancelStore_watched
  | noticeFetch tag => exact .request_quiet rfl
  | noticeMaskRead tag func enabled => exact .request_quiet (congrArg State.watched (s.readMask_state func))
  | noticeMaskWrite tag enabled => exact .request_quiet (s.writeMask_watched enabled)
  | softReset tag => exact .request fun _ => s.softReset_moves

/-! ### Every step -/

/-- What the moves keep, what holds after a power-on reset, what a published set keeps and what passing time
keeps, every step keeps. -/
theorem step_keeps_watched {P : Watched → Prop} (hmove : ∀ {w v}, Move w v → P w → P v)
    (hreset : ∀ s : State, P s.powerOn.watched)
    (hround : ∀ (s : State) (v : PerChannel Conversion) (dt : Nat), P s.watched →
      P { s.watched with
        meas := s.meas.complete s.tables.cal dt v
        seqSet := s.handed.seqSet.map (· ++ [(s.meas.complete s.tables.cal dt v).published dt]) })
    (htick : ∀ s : State, P s.watched → P s.tick.watched) {s t : State} (hs : P s.watched)
    (h : step s = .next t) : P t.watched := by
  cases hq : s.pending with
  | nil =>
    rw [step_empty s hq] at h
    injection h with h
    exact h ▸ htick s hs
  | cons i rest =>
    rw [step_cons s i rest hq] at h
    by_cases hi : i = .powerOnReset
    · subst hi
      injection h with h
      exact h ▸ hreset _
    by_cases hv : ∃ v, i = .roundCompletion v
    · obtain ⟨v, rfl⟩ := hv
      cases hf : s.meas.inFlight with
      | none =>
        rw [show exec (.roundCompletion v) { s with pending := rest } = .next { s with pending := rest }
          from execRoundCompletion_idle v hf] at h
        injection h with h
        exact h ▸ hs
      | some dt =>
        have due := execRoundCompletion_due (s := { s with pending := rest }) v hf
        rw [show exec (.roundCompletion v) { s with pending := rest } = _ from due] at h
        injection h with h
        exact h ▸ hround s v dt hs
    · have moves := exec_moving { s with pending := rest } hi (fun v hc => hv ⟨v, hc⟩) t h
      exact Moves.keeps hmove moves hs

end Sys2Proof.Machine
end

section
/-! PROOFS. The pause reasons and what the sequencers hold follow their sources, kept by every move of the watched part (R8, R51, R62, R124, R179). -/

namespace Sys2Proof.Machine

/-! ### Power-on reset and published sets -/

/-- A power-on reset leaves nothing waiting, and every reason, copy and channel record agreeing with its
source (R18, R55, R81, R128, R186). -/
theorem powerOn_watched (s : State) :
    s.powerOn.watched = {
      phase := .reset, meas := powerOnMeas
      inhibited := PerCell.both s.factory.bootHold, faulted := PerCell.both false
      inhibit := powerOnInhibit s.factory.bootHold, restriction := PerCell.both .none
      seqInhibit := ⟨[], []⟩, seqFault := ⟨[], []⟩
      seen := seenAtStart (powerOnTables s.factory)
      profile := (powerOnTables s.factory).profile.map (·.active)
      bands := (powerOnTables s.factory).bands.active
      seqSet := ⟨[], []⟩, seqPromotion := ⟨[], []⟩ } := rfl

/-- VC of a cell in the channel records. -/
def MeasUnit.vc (u : MeasUnit) : Cell → ChannelRecord
  | .near => u.chan.vcn
  | .far => u.chan.vcf

/-- VC of a cell in the set that a unit publishes is that of its channel record (R7). -/
theorem MeasUnit.published_vc (u : MeasUnit) (dt : Nat) (c : Cell) :
    ((u.published dt).vc c, (u.published dt).vcAge c) = ((u.vc c).value, (u.vc c).age) := by
  cases c <;> rfl

/-! ### The pause reasons (R62, R124, R179) -/

/-- The INHIBIT and FAULT pause reasons of a cell agree with their sources, or with the latest change that
waits. -/
def Watched.Follows (w : Watched) (c : Cell) : Prop :=
  (w.seqInhibit.get c).getLast?.getD (w.inhibited.get c) = (w.inhibit.get c != 0)
    ∧ ((w.seqFault.get c).getLast?.map Restriction.blocksCharge).getD (w.faulted.get c)
      = (w.restriction.get c).blocksCharge

theorem follows_iff (s : State) (c : Cell) :
    s.watched.Follows c ↔ ReasonsFollow (s.seq.get c) (s.inhibit.get c) (s.path.get c).restriction
      (s.handed.seqInhibit.get c) (s.handed.seqFault.get c) := by
  cases c <;> exact Iff.rfl

/-- Every move keeps a cell's pause reasons in agreement with their sources. -/
theorem Move.keeps_follows {w v : Watched} (move : Move w v) (d : Cell) (h : w.Follows d) : v.Follows d := by
  obtain ⟨hi, hf⟩ := h
  cases move with
  | takesInhibit c b rest hwait =>
    by_cases hc : d = c
    · subst hc
      rw [hwait, List.getLast?_cons] at hi
      exact ⟨by simpa using hi, hf⟩
    · refine ⟨?_, hf⟩
      simpa only [PerCell.get_set, if_neg hc] using hi
  | takesFault c x rest hwait =>
    by_cases hc : d = c
    · subst hc
      rw [hwait, List.getLast?_cons] at hf
      refine ⟨hi, ?_⟩
      simp only [PerCell.get_set_same]
      rw [← hf]
      cases rest.getLast? <;> rfl
    · refine ⟨hi, ?_⟩
      simpa only [PerCell.get_set, if_neg hc] using hf
  | restricts c x =>
    by_cases hc : d = c
    · subst hc
      exact ⟨hi, by simp⟩
    · refine ⟨hi, ?_⟩
      simpa only [PerCell.get_set, if_neg hc] using hf
  | inhibits c x =>
    by_cases hc : d = c
    · subst hc
      exact ⟨by simp, hf⟩
    · refine ⟨?_, hf⟩
      simpa only [PerCell.get_set, if_neg hc] using hi
  | loads | opens | startsRound | takesSet | holds | takesPromotion | promotesProfile | promotesBands =>
    exact ⟨hi, hf⟩

theorem powerOn_follows (s : State) (c : Cell) : s.powerOn.watched.Follows c := by
  have boot : ∀ b : Bool, b = ((if b then 0x01 else 0x00 : Byte) != 0) := by decide
  rw [powerOn_watched]
  cases c <;> exact ⟨boot s.factory.bootHold, rfl⟩

/-! ### What the sequencers hold (R8, R51) -/

/-- What a sequencer holds agrees with the active tables and VC, but for what waits. -/
def Watched.Seen (w : Watched) (c : Cell) : Prop :=
  ((w.seqPromotion.get c).filterMap Promoted.profileWords).getLast?.getD (w.seen.get c).prof
      = w.profile.get c
    ∧ ((w.seqPromotion.get c).filterMap Promoted.bandWords).getLast?.getD (w.seen.get c).bands = w.bands
    ∧ ((w.seqSet.get c).getLast?.map fun m => (m.vc c, m.vcAge c)).getD
        ((w.seen.get c).vc, (w.seen.get c).age) = ((w.meas.vc c).value, (w.meas.vc c).age)

/-- No promotion waits before the part is open, and both sequencers hold what they should. -/
def Watched.SeenOk (w : Watched) : Prop :=
  (w.phase ≠ .running → w.seqPromotion = ⟨[], []⟩) ∧ ∀ c, w.Seen c

theorem seenFollows_iff (s : State) (c : Cell) : s.watched.Seen c ↔ SeenFollows s c := by
  cases c <;> exact Iff.rfl

theorem seenOk_iff (s : State) : s.watched.SeenOk ↔ SeenOk s :=
  and_congr_right fun _ =>
    ⟨fun h => ⟨(seenFollows_iff s .near).1 (h .near), (seenFollows_iff s .far).1 (h .far)⟩,
      fun h c => (seenFollows_iff s c).2 (match c with | .near => h.1 | .far => h.2)⟩

/-- The copy that `holding` puts in place is the one that the latest promotion that waits gives, or the active
one. -/
theorem SeqSeen.holding_prof (v : SeqSeen) (active : Words) (k : Nat) (waiting : Option Words)
    (h : waiting.getD v.prof = active) : waiting.getD (v.holding active k).prof = active := by
  unfold holding
  split
  · exact h
  · cases waiting with
    | none => rfl
    | some _ => exact h

theorem SeqSeen.holding_bands (v : SeqSeen) (active : Words) (k : Nat) :
    (v.holding active k).bands = v.bands := by
  unfold holding
  split <;> rfl

theorem SeqSeen.holding_vc (v : SeqSeen) (active : Words) (k : Nat) :
    ((v.holding active k).vc, (v.holding active k).age) = (v.vc, v.age) := by
  unfold holding
  split <;> rfl

/-- Every move keeps what a sequencer holds in agreement with what it follows. -/
theorem Move.keeps_seenOk {w v : Watched} (move : Move w v) (h : w.SeenOk) : v.SeenOk := by
  obtain ⟨hnone, hseen⟩ := h
  cases move with
  | loads profile bands hreset =>
    have none : w.seqPromotion = ⟨[], []⟩ := hnone (by rw [hreset]; decide)
    refine ⟨fun _ => none, fun d => ?_⟩
    obtain ⟨-, -, hvc⟩ := hseen d
    cases d <;> simp only [Watched.Seen, none] <;> exact ⟨rfl, rfl, hvc⟩
  | opens n => exact ⟨fun h => absurd rfl h, hseen⟩
  | startsRound n dt => exact ⟨hnone, hseen⟩
  | takesSet c m rest hwait =>
    refine ⟨hnone, fun d => ?_⟩
    obtain ⟨hp, hb, hvc⟩ := hseen d
    by_cases hc : d = c
    · subst hc
      rw [hwait, List.getLast?_cons] at hvc
      simp only [Watched.Seen, PerCell.get_set_same, SeqSeen.onSet]
      refine ⟨hp, hb, ?_⟩
      rw [← hvc]
      cases rest.getLast? <;> rfl
    · simp only [Watched.Seen, PerCell.get_set, if_neg hc]
      exact ⟨hp, hb, hvc⟩
  | holds c k =>
    refine ⟨hnone, fun d => ?_⟩
    obtain ⟨hp, hb, hvc⟩ := hseen d
    by_cases hc : d = c
    · subst hc
      simp only [Watched.Seen, PerCell.get_set_same, SeqSeen.holding_bands, SeqSeen.holding_vc]
      exact ⟨SeqSeen.holding_prof _ _ k _ hp, hb, hvc⟩
    · simp only [Watched.Seen, PerCell.get_set, if_neg hc]
      exact ⟨hp, hb, hvc⟩
  | takesPromotion c p rest hwait =>
    have hrun : w.phase = .running := by
      refine Classical.byContradiction fun hclosed => ?_
      rw [hnone hclosed] at hwait
      cases c <;> cases hwait
    refine ⟨fun h => absurd hrun h, fun d => ?_⟩
    obtain ⟨hp, hb, hvc⟩ := hseen d
    by_cases hc : d = c
    · subst hc
      rw [hwait] at hp hb
      simp only [Watched.Seen, PerCell.get_set_same]
      cases p with
      | profile new =>
        simp only [List.filterMap_cons, Promoted.profileWords, Promoted.bandWords, List.getLast?_cons,
          Option.getD_some] at hp hb
        exact ⟨hp, hb, hvc⟩
      | bands new =>
        simp only [List.filterMap_cons, Promoted.profileWords, Promoted.bandWords, List.getLast?_cons,
          Option.getD_some] at hp hb
        exact ⟨hp, hb, hvc⟩
    · simp only [Watched.Seen, PerCell.get_set, if_neg hc]
      exact ⟨hp, hb, hvc⟩
  | promotesProfile c new hrun =>
    refine ⟨fun h => absurd hrun h, fun d => ?_⟩
    obtain ⟨hp, hb, hvc⟩ := hseen d
    by_cases hc : d = c
    · subst hc
      simp only [Watched.Seen, PerCell.get_set_same, List.filterMap_append, List.filterMap_cons,
        List.filterMap_nil, Promoted.profileWords, Promoted.bandWords, List.append_nil]
      exact ⟨by simp, hb, hvc⟩
    · simp only [Watched.Seen, PerCell.get_set, if_neg hc]
      exact ⟨hp, hb, hvc⟩
  | promotesBands new hrun =>
    refine ⟨fun h => absurd hrun h, fun d => ?_⟩
    obtain ⟨hp, -, hvc⟩ := hseen d
    simp only [Watched.Seen, PerCell.get_map, List.filterMap_append, List.filterMap_cons,
      List.filterMap_nil, Promoted.profileWords, Promoted.bandWords, List.append_nil]
    exact ⟨hp, by simp, hvc⟩
  | takesInhibit | takesFault | restricts | inhibits => exact ⟨hnone, hseen⟩

theorem powerOn_seenOk (s : State) : s.powerOn.watched.SeenOk := by
  rw [powerOn_watched]
  refine ⟨fun _ => rfl, fun c => ?_⟩
  cases c <;> exact ⟨rfl, rfl, rfl⟩

/-- A published set keeps what a sequencer holds in agreement with VC: the set waits for it (R8). -/
theorem published_seenOk (s : State) (v : PerChannel Conversion) (dt : Nat) (h : s.watched.SeenOk) :
    Watched.SeenOk { s.watched with
      meas := s.meas.complete s.tables.cal dt v
      seqSet := s.handed.seqSet.map (· ++ [(s.meas.complete s.tables.cal dt v).published dt]) } := by
  obtain ⟨hnone, hseen⟩ := h
  refine ⟨hnone, fun c => ?_⟩
  obtain ⟨hp, hb, -⟩ := hseen c
  refine ⟨hp, hb, ?_⟩
  simp only [PerCell.get_map, List.getLast?_concat, Option.map_some, Option.getD_some]
  exact MeasUnit.published_vc _ dt c

/-- Settles O60: both agreements are kept by every move of the watched part, by a published set and by passing
time, and a power-on reset gives them. -/
theorem pauseReasonsFollowTheirSources : Obligations.PauseReasonsFollowTheirSources := by
  unfold Obligations.PauseReasonsFollowTheirSources
  refine ⟨fun s t hs ht => ?_, fun s t hs ht => ?_⟩
  · have kept : ∀ c, t.watched.Follows c :=
      step_keeps_watched (P := fun w => ∀ c, w.Follows c) (fun move hw c => move.keeps_follows c (hw c))
        powerOn_follows (fun _ _ _ hw => hw) (fun _ hw => hw) (fun c => (follows_iff s c).2 (hs c)) ht
    exact fun c => (follows_iff t c).1 (kept c)
  · have kept : t.watched.SeenOk :=
      step_keeps_watched Move.keeps_seenOk powerOn_seenOk published_seenOk (fun _ hw => hw)
        ((seenOk_iff s).2 hs) ht
    exact (seenOk_iff t).1 kept

end Sys2Proof.Machine
end

section
/-! PROOFS. The measurement unit: the round timer, what a round completion makes of the channel records and of the flex estimate, and the set it publishes (chapter 01). -/

namespace Sys2Proof.Machine

/-! ### Channel records (R10 to R12, R14) -/

/-- Rounding half away from zero, by the divisor of the calibration (R1, R14). -/
theorem divHalfAway_tenThousand (a : Int) :
    divHalfAway a 10000 = if 0 ≤ a then (a + 5000) / 10000 else -((-a + 5000) / 10000) := by
  unfold divHalfAway
  rw [Int.fdiv_eq_ediv_of_nonneg _ (by decide), Int.fdiv_eq_ediv_of_nonneg _ (by decide)]
  split <;> omega

/-- The calibrated value with its rounding written out (R14). -/
theorem calibrated_eq (cal : Words) (n : Nat) (raw : Int) :
    calibrated cal n raw =
      let product := (raw + cal.getD (3 * n) 0)
        * (10000 + 200 * cal.getD (3 * n + 1) 0 + 10 * cal.getD (3 * n + 2) 0)
      if 0 ≤ product then (product + 5000) / 10000 else -((-product + 5000) / 10000) :=
  divHalfAway_tenThousand _

/-- A conversion is valid unless it is saturated, or a temperature outside its valid range (R10). -/
theorem conversionValid_iff (cal : Words) (ch : Channel) (v : Conversion) :
    conversionValid cal ch v = true ↔ ¬ (v.saturated = true ∨ ch.temperature = true ∧
      (calibrated cal ch.num v.code.toInt < ch.lo ∨ ch.hi < calibrated cal ch.num v.code.toInt)) := by
  unfold conversionValid
  cases v.saturated <;> cases ch.temperature <;> simp

theorem countUpTo_eq_min (bound n : Nat) : countUpTo bound n = min bound (n + 1) := by
  unfold countUpTo
  split <;> omega

/-- A channel record after a round completion: an invalid conversion leaves the value and ages the record, a
valid one gives the calibrated value and age 0. -/
theorem ChannelRecord.complete_taken (cal : Words) (ch : Channel) (v : Conversion) (r : ChannelRecord) :
    ChannelTaken cal ch.num ch.lo ch.hi ch.temperature v r (r.complete cal ch v) := by
  unfold ChannelTaken ChannelRecord.complete
  dsimp only
  rw [← calibrated_eq cal ch.num v.code.toInt]
  by_cases h : conversionValid cal ch v = true
  · rw [if_pos h, if_neg ((conversionValid_iff cal ch v).1 h)]
    exact ⟨rfl, rfl, rfl⟩
  · have invalid := Classical.not_not.1 fun hv => h ((conversionValid_iff cal ch v).2 hv)
    rw [if_neg h, if_pos invalid]
    exact ⟨rfl, rfl, countUpTo_eq_min 255 r.age⟩

/-! ### The flex estimate (R15 to R17) -/

/-- A set is a flex sample where the three channels are usable and the far current is 200 mA at least in
either direction (R15). -/
theorem flexSample_iff (r : PerChannel ChannelRecord) :
    flexSample r = true ↔
      r.vfn.age ≤ 2 ∧ r.vcf.age ≤ 2 ∧ r.icf.age ≤ 2 ∧ 200 ≤ r.icf.value.natAbs := by
  simp only [flexSample, usable, Bool.and_eq_true, Bool.or_eq_true, decide_eq_true_eq, and_assoc]
  omega

namespace MeasUnit
variable (u : MeasUnit)

/-- The flex estimate changes RFLEX and its valid flag alone. -/
theorem takeFlex_frame : u.takeFlex = { u with rflex := u.takeFlex.rflex, flexValid := u.takeFlex.flexValid } := by
  unfold takeFlex
  split
  · split <;> rfl
  · rfl

theorem takeFlex_sample (h : flexSample u.chan = true) :
    u.takeFlex.flexValid = true ∧ u.takeFlex.rflex =
      if u.flexValid then u.rflex + (flexResistance u.chan - u.rflex).tdiv 4 else flexResistance u.chan := by
  unfold takeFlex
  rw [if_pos h]
  split
  · rename_i hv
    exact ⟨hv, rfl⟩
  · exact ⟨rfl, rfl⟩

theorem takeFlex_other (h : ¬ flexSample u.chan = true) : u.takeFlex = u := by
  unfold takeFlex
  rw [if_neg h]

variable (cal : Words) (dt : Nat) (v : PerChannel Conversion)

/-- The unit after a round completion but for the flex estimate. -/
theorem complete_frame :
    u.complete cal dt v = { u with
      inFlight := none, setDt := dt, chan := completeAll cal v u.chan
      rflex := (u.complete cal dt v).rflex, flexValid := (u.complete cal dt v).flexValid } :=
  takeFlex_frame _

@[simp] theorem complete_roundTimer : (u.complete cal dt v).roundTimer = u.roundTimer := by
  rw [complete_frame]

@[simp] theorem complete_inFlight : (u.complete cal dt v).inFlight = none := by
  rw [complete_frame]

@[simp] theorem complete_setDt : (u.complete cal dt v).setDt = dt := by
  rw [complete_frame]

@[simp] theorem complete_chan : (u.complete cal dt v).chan = completeAll cal v u.chan := by
  rw [complete_frame]

/-- The flex estimate after a round whose records are a flex sample (R16, R17). -/
theorem complete_sample (h : flexSample (completeAll cal v u.chan) = true) :
    (u.complete cal dt v).flexValid = true ∧ (u.complete cal dt v).rflex =
      if u.flexValid then u.rflex + (flexResistance (completeAll cal v u.chan) - u.rflex).tdiv 4
      else flexResistance (completeAll cal v u.chan) :=
  takeFlex_sample { u with inFlight := none, setDt := dt, chan := completeAll cal v u.chan } h

/-- The unit after a round whose records are no flex sample. -/
theorem complete_other (h : ¬ flexSample (completeAll cal v u.chan) = true) :
    u.complete cal dt v = { u with inFlight := none, setDt := dt, chan := completeAll cal v u.chan } :=
  takeFlex_other { u with inFlight := none, setDt := dt, chan := completeAll cal v u.chan } h

/-- The valid flag stays set (R17). -/
theorem complete_flexValid (h : u.flexValid = true) : (u.complete cal dt v).flexValid = true := by
  by_cases hs : flexSample (completeAll cal v u.chan) = true
  · exact (u.complete_sample cal dt v hs).1
  · rw [u.complete_other cal dt v hs]
    exact h

end MeasUnit

/-! ### The commands on the measurement unit -/

theorem exec_roundTimerExpiry (s : State) : exec .roundTimerExpiry s = execRoundTimerExpiry s := rfl

theorem exec_roundCompletion (s : State) (v : PerChannel Conversion) :
    exec (.roundCompletion v) s = execRoundCompletion v s := rfl

/-- Every move keeps the channel records and the flex estimate's valid flag, and a round timer that runs
running (R4, R9, R17). -/
theorem Move.keeps_meas {w v : Watched} (move : Move w v) :
    v.meas.chan = w.meas.chan ∧ v.meas.flexValid = w.meas.flexValid
      ∧ (w.meas.roundTimer.isSome → v.meas.roundTimer.isSome) := by
  cases move with
  | opens | startsRound => exact ⟨rfl, rfl, fun _ => rfl⟩
  | loads | takesSet | holds | takesPromotion | takesInhibit | takesFault | restricts | inhibits
  | promotesProfile | promotesBands => exact ⟨rfl, rfl, id⟩

theorem Moves.keeps_meas {w v : Watched} (moves : Moves w v) :
    v.meas.chan = w.meas.chan ∧ v.meas.flexValid = w.meas.flexValid
      ∧ (w.meas.roundTimer.isSome → v.meas.roundTimer.isSome) := by
  induction moves with
  | refl => exact ⟨rfl, rfl, id⟩
  | tail _ move ih =>
    obtain ⟨hchan, hflex, htimer⟩ := ih
    obtain ⟨gchan, gflex, gtimer⟩ := move.keeps_meas
    exact ⟨gchan.trans hchan, gflex.trans hflex, gtimer ∘ htimer⟩

/-- What a command but POWER_ON_RESET leaves of the measurement unit is what the unit held, moved by the moves
alone, or that unit with a round completed. -/
theorem exec_meas {s t : State} {i : Instr} (hi : i ≠ .powerOnReset) (h : exec i s = .next t) :
    Moves s.watched t.watched
      ∨ ∃ v dt, i = .roundCompletion v ∧ t.meas = s.meas.complete s.tables.cal dt v := by
  by_cases hv : ∃ v, i = .roundCompletion v
  · obtain ⟨v, rfl⟩ := hv
    rw [exec_roundCompletion] at h
    cases hf : s.meas.inFlight with
    | none =>
      rw [execRoundCompletion_idle v hf] at h
      injection h with h
      exact .inl (h ▸ Moves.refl _)
    | some dt =>
      rw [execRoundCompletion_due v hf] at h
      injection h with h
      exact .inr ⟨v, dt, rfl, h ▸ rfl⟩
  · exact .inl (exec_moving s hi (fun v hc => hv ⟨v, hc⟩) t h)

/-- Settles O7: the expiry is ROUND_TIMER_EXPIRY's two cases, and no move and no round completion stops a
timer that runs. -/
theorem roundTimerExpiryStartsARound : Obligations.RoundTimerExpiryStartsARound := by
  unfold Obligations.RoundTimerExpiryStartsARound
  refine ⟨fun s ht hf => ?_, fun s h => ?_, fun i s t hi hs h => ?_, fun s t h => ?_⟩
  · rw [exec_roundTimerExpiry, execRoundTimerExpiry_due ht hf]
  · rw [exec_roundTimerExpiry, execRoundTimerExpiry_early h]
  · obtain moves | ⟨v, dt, -, ht⟩ := exec_meas hi h
    · obtain ⟨-, -, htimer⟩ := moves.keeps_meas
      exact htimer hs
    · rwa [ht, MeasUnit.complete_roundTimer]
  · injection h with h
    exact h ▸ rfl

/-- Settles O8: the set is what the unit publishes after the round, and it waits for all seven consumers. -/
theorem roundCompletionPublishesOneSet : Obligations.RoundCompletionPublishesOneSet := by
  unfold Obligations.RoundCompletionPublishesOneSet
  intro s v dt hf
  rw [exec_roundCompletion, execRoundCompletion_due v hf]
  exact ⟨_, (s.meas.complete s.tables.cal dt v).published dt, rfl, rfl, MeasUnit.complete_roundTimer ..,
    MeasUnit.complete_inFlight .., MeasUnit.complete_setDt .., rfl, rfl, rfl, rfl, rfl⟩

/-- Settles O9: each channel's record is completed by the channel's own number, range and kind, and no command
but ROUND_COMPLETION and POWER_ON_RESET touches the records. -/
theorem roundCompletionUpdatesEveryChannel : Obligations.RoundCompletionUpdatesEveryChannel := by
  unfold Obligations.RoundCompletionUpdatesEveryChannel
  refine ⟨fun s v dt hf => ?_, fun age => by simp [usable], fun i s t hround hi h => ?_⟩
  · rw [exec_roundCompletion, execRoundCompletion_due v hf]
    refine ⟨_, rfl, ?_⟩
    dsimp only
    rw [MeasUnit.complete_chan]
    have taken (ch : Channel) (x : Conversion) (r : ChannelRecord) := r.complete_taken s.tables.cal ch x
    exact ⟨taken channels.vbus _ _, taken channels.ibus _ _, taken channels.vsys _ _,
      taken channels.iload _ _, taken channels.vcn _ _, taken channels.icn _ _, taken channels.vcf _ _,
      taken channels.icf _ _, taken channels.vfn _ _, taken channels.tn _ _, taken channels.tf _ _,
      taken channels.tdie _ _⟩
  · obtain moves | ⟨v, -, hv, -⟩ := exec_meas hi h
    · exact moves.keeps_meas.1
    · exact absurd hv (hround v)

/-- Settles O10: the estimate is taken from the completed records where they are a flex sample, and neither a
move nor a round completion clears the flag. -/
theorem flexSampleUpdatesTheEstimate : Obligations.FlexSampleUpdatesTheEstimate := by
  unfold Obligations.FlexSampleUpdatesTheEstimate
  refine ⟨fun s v dt hf => ?_, fun i s t hi h hs => ?_⟩
  · rw [exec_roundCompletion, execRoundCompletion_due v hf]
    refine ⟨_, rfl, ?_⟩
    dsimp only
    rw [MeasUnit.complete_chan]
    split
    · rename_i sample
      exact s.meas.complete_sample _ dt v ((flexSample_iff _).2 sample)
    · rename_i other
      rw [s.meas.complete_other _ dt v fun h => other ((flexSample_iff _).1 h)]
      exact ⟨rfl, rfl⟩
  · obtain moves | ⟨v, dt, -, ht⟩ := exec_meas hi h
    · obtain ⟨-, hflex, -⟩ := moves.keeps_meas
      exact hflex.trans hs
    · rw [ht]
      exact s.meas.complete_flexValid _ dt v hs

end Sys2Proof.Machine
end

section
/-! PROOFS. A pause reason brought up to date by an inhibit event or a restriction change (R62, R64 to R66, R124, R179). -/

namespace Sys2Proof.Machine

theorem Restriction.blocksCharge_eq (x : Restriction) :
    x.blocksCharge = decide (x = .blockCharge ∨ x = .blockAll) := by cases x <;> rfl

/-- What a change of the pause reasons makes of a record: it pauses a charging state with its timers kept, it
resumes PAUSED by an entry evaluation with the timers kept, and it changes no other state (R64 to R66). -/
theorem Seq.afterReasons_outcome (e : SeqEnv) (age : Nat) (he : e.vcOk = usable age) (was : PauseReasons)
    (old : SeqRecord) :
    let r := afterReasons e was old
    if old.state.charging = true ∧ old.reasons.any = true then
      r = { old with state := .paused, k := 0, full := .none, adv := 0, term := 0, demand := 0 }
    else if old.state = .paused ∧ was.any = true ∧ old.reasons.any = false then
      entryOutcome ⟨e.prof, e.bands, e.vc, age⟩ e.grant old old.pre old.fast r
    else r = old := by
  dsimp only
  unfold afterReasons
  by_cases pauses : old.state.charging = true ∧ old.reasons.any = true
  · rw [if_pos pauses, if_pos ((Bool.and_eq_true _ _).mpr pauses)]
    rfl
  · rw [if_neg pauses, if_neg fun h => pauses ((Bool.and_eq_true _ _).mp h)]
    by_cases resumes : old.state = .paused ∧ was.any = true ∧ old.reasons.any = false
    · rw [if_pos resumes, if_pos (by simpa using resumes)]
      exact entry_outcome e old age he old.pre old.fast
    · rw [if_neg resumes, if_neg (by simpa using resumes)]

/-- What a sequencer's record becomes with these pause reasons, between sets (R62). -/
def State.withReasons (s : State) (c : Cell) (reasons : PauseReasons) : SeqRecord :=
  Seq.afterReasons (s.seqEnv c) (s.seq.get c).reasons { s.seq.get c with reasons := reasons }

theorem State.withReasons_reasons (s : State) (c : Cell) (reasons : PauseReasons) :
    (s.withReasons c reasons).reasons = reasons := by
  obtain ⟨-, -, -, hr, -⟩ := Seq.afterReasons_keeps (s.seqEnv c) (s.seq.get c).reasons
    { s.seq.get c with reasons := reasons }
  exact hr

theorem exec_seqInhibitEvent {s : State} {c : Cell} {b : Bool} {rest : List Bool}
    (h : s.handed.seqInhibit.get c = b :: rest) :
    exec (.seqInhibitEvent c) s = .next
      ((s.setHanded { s.handed with seqInhibit := s.handed.seqInhibit.set c rest }).takeEventSeq c
        (s.withReasons c { (s.seq.get c).reasons with inhibit := b })) := by
  simp only [exec, execSeqInhibitEvent, h]
  rfl

theorem exec_seqFaultReasonUpdate {s : State} {c : Cell} {x : Restriction} {rest : List Restriction}
    (h : s.handed.seqFault.get c = x :: rest) :
    exec (.seqFaultReasonUpdate c) s = .next
      ((s.setHanded { s.handed with seqFault := s.handed.seqFault.set c rest }).takeEventSeq c
        (s.withReasons c { (s.seq.get c).reasons with fault := x.blocksCharge })) := by
  simp only [exec, execSeqFaultReasonUpdate, h]
  rfl

/-- Settles O19: both events give the sequencer the record with the new set of pause reasons, which pauses it,
resumes it or leaves it. -/
theorem pauseReasonsPauseAndResume : Obligations.PauseReasonsPauseAndResume := by
  unfold Obligations.PauseReasonsPauseAndResume
  intro s c reasons h i event
  have taken : exec i s = .next ((s.setHanded h).takeEventSeq c (s.withReasons c reasons)) := by
    obtain ⟨b, rest, hwait, rfl, rfl, rfl⟩ | ⟨x, rest, hwait, rfl, rfl, rfl⟩ := event
    · exact exec_seqInhibitEvent hwait
    · rw [exec_seqFaultReasonUpdate hwait, x.blocksCharge_eq]
  exact ⟨_, s.withReasons c reasons, taken,
    (s.setHanded h).takeEventSeq_took c (s.withReasons c reasons), s.withReasons_reasons c reasons,
    Seq.afterReasons_outcome (s.seqEnv c) (s.vc c).age rfl (s.seq.get c).reasons
      { s.seq.get c with reasons := reasons }⟩

end Sys2Proof.Machine
end

section
/-! PROOFS. Passing time, power-on reset, and the part right after it: the power-on values meet every predicate that every step keeps. -/

namespace Sys2Proof.Machine

/-- Settles O2: a step on an empty queue is a tick, which counts every timer down. -/
theorem emptyQueueLetsATenthPass : Obligations.EmptyQueueLetsATenthPass := by
  unfold Obligations.EmptyQueueLetsATenthPass
  intro s h
  exact step_empty s h

/-- Settles O4: the state that a power-on reset leaves, block by block. -/
theorem powerOnResetGivesPowerOnValues : Obligations.PowerOnResetGivesPowerOnValues := by
  unfold Obligations.PowerOnResetGivesPowerOnValues
  intro s
  have inhibit : powerOnInhibit s.factory.bootHold = if s.factory.bootHold then ⟨1, 1⟩ else ⟨0, 0⟩ := by
    cases s.factory.bootHold <;> rfl
  have faults : ∀ k, powerOnProtection.record.get k = clearFault := by
    intro k
    cases k <;> rfl
  refine ⟨s.powerOn, rfl, rfl, rfl, rfl, rfl, ⟨rfl, rfl⟩, rfl, rfl, rfl, faults, rfl, rfl, rfl, rfl,
    inhibit, rfl, rfl, rfl, rfl, rfl, rfl⟩

/-! ### Right after reset -/

/-- The part right after reset is as a power-on reset of it leaves it (log 10, 13). -/
theorem reset_powerOn : State.reset.powerOn = State.reset := rfl

theorem reset_link : QueueOk State.reset.link ∧ ReplyOk State.reset.link := by decide

theorem reset_factory : FactoryOk State.reset.factory := by decide

theorem reset_counters : CountersOk State.reset := by decide

/-- The default profiles of the standard build and the default band table pass their checks, and every default
word lies in its range (R40, R43, R45, R48, R49, R190). -/
theorem reset_tables : TablesOk State.reset.factory State.reset.tables := by decide

theorem reset_sequencers : Both State.reset.seq SeqOk
    ∧ ChargesUnderInput State.reset.inputActive State.reset.seq.near State.reset.handed.seqSignal.near
    ∧ ChargesUnderInput State.reset.inputActive State.reset.seq.far State.reset.handed.seqSignal.far :=
  ⟨by decide, by decide, by decide⟩

theorem reset_paths : Both State.reset.path PathOk
    ∧ OpenUnderInput State.reset.inputActive State.reset.path.near State.reset.handed.pathSignal.near
    ∧ OpenUnderInput State.reset.inputActive State.reset.path.far State.reset.handed.pathSignal.far
    ∧ FarHeld State.reset := ⟨by decide, by decide, by decide, by decide⟩

theorem reset_input : InputOk State.reset.input ∧ AttachOk false State.reset.input.present
    ∧ AttachOk false State.reset.input.ov := by decide

theorem reset_hinge : HingeOk false State.reset.hinge := by decide

theorem reset_faults : FaultsOk State.reset ∧ ActionsReach State.reset := by decide

theorem reset_transfer : TransferOk State.reset ∧ TransferNamed State.reset.alloc.transfer := by decide

/-- No store operation runs, and an erased slot has the words of its record (R189, R191). -/
theorem reset_store : StoreOk State.reset.store ∧ SlotsOk State.reset.store := ⟨trivial, by decide⟩

theorem reset_seenOk : SeenOk State.reset := by
  rw [← seenOk_iff, ← reset_powerOn]
  exact powerOn_seenOk State.reset

theorem reset_follows (c : Cell) :
    ReasonsFollow (State.reset.seq.get c) (State.reset.inhibit.get c) (State.reset.path.get c).restriction
      (State.reset.handed.seqInhibit.get c) (State.reset.handed.seqFault.get c) := by
  rw [← follows_iff, ← reset_powerOn]
  exact powerOn_follows State.reset c

/-- Settles O49: each block's predicate holds of its power-on values. -/
theorem resetSatisfiesEveryPredicate : Obligations.ResetSatisfiesEveryPredicate := by
  unfold Obligations.ResetSatisfiesEveryPredicate
  obtain ⟨queue, reply⟩ := reset_link
  obtain ⟨seqs, chargesNear, chargesFar⟩ := reset_sequencers
  obtain ⟨paths, openNear, openFar, farHeld⟩ := reset_paths
  obtain ⟨input, present, ov⟩ := reset_input
  obtain ⟨faults, actions⟩ := reset_faults
  obtain ⟨transfer, named⟩ := reset_transfer
  obtain ⟨store, slots⟩ := reset_store
  exact ⟨queue, reply, reset_factory, reset_counters, reset_tables, seqs, paths, input, reset_hinge, present,
    ov, faults, actions, chargesNear, chargesFar, openNear, openFar, reset_seenOk, farHeld, transfer, named,
    store, slots, reset_follows⟩

end Sys2Proof.Machine
end

section
/-! PROOFS. The grants of a split: rounding down to steps of 25 mA, and what a headroom gives to the two capped demands (R90 to R92). -/

namespace Sys2Proof.Machine

/-! ### Rounding down (R1) -/

theorem downTo_eq_ediv {step : Int} (h : 0 ≤ step) (x : Int) : downTo step x = x / step * step := by
  rw [downTo, Int.fdiv_eq_ediv_of_nonneg x h]

/-- A current rounded down to a step of 25 mA: a multiple of it, below the current by less than a step. -/
theorem downTo_bounds (x : Int) : downTo 25 x % 25 = 0 ∧ downTo 25 x ≤ x ∧ x < downTo 25 x + 25 := by
  rw [downTo_eq_ediv (by decide)]
  omega

theorem downTo_nonneg {x : Int} (h : 0 ≤ x) : 0 ≤ downTo 25 x := by
  rw [downTo_eq_ediv (by decide)]
  omega

/-! ### The split (R90, R91) -/

/-- A per-mille share of a headroom lies within it. -/
theorem share_bounds {h w : Int} (hh : 0 ≤ h) (hw0 : 0 ≤ w) (hw : w ≤ 1000) :
    0 ≤ divFloor (h * w) 1000 ∧ divFloor (h * w) 1000 ≤ h := by
  have nonneg : 0 ≤ h * w := Int.mul_nonneg hh hw0
  have within : h * w ≤ h * 1000 := Int.mul_le_mul_of_nonneg_left hw hh
  rw [divFloor, Int.fdiv_eq_ediv_of_nonneg _ (by decide)]
  omega

/-- No headroom gives nothing (R90). -/
theorem split_none {h : Int} (w dN dF : Int) (hh : h ≤ 0) : split h w dN dF = ⟨0, 0⟩ := by
  rw [split, if_pos hh]

/-- A headroom that covers both demands gives them (R90). -/
theorem split_covers {h dN dF : Int} (w : Int) (hh : 0 < h) (hd : dN + dF ≤ h) :
    split h w dN dF = ⟨dN, dF⟩ := by
  rw [split, if_neg (by omega), if_pos hd]

/-- A headroom that does not cover the demands is split by the near share (R91). -/
theorem split_shares {h dN dF : Int} (w : Int) (hh : 0 < h) (hd : h < dN + dF) :
    split h w dN dF =
      ⟨min dN (h - min dF (h - min dN (divFloor (h * w) 1000))),
        min dF (h - min dN (divFloor (h * w) 1000))⟩ := by
  rw [split, if_neg (by omega), if_neg (by omega)]

/-- Before rounding, the grants keep within the headroom and the demands. -/
theorem split_bounds {h w dN dF : Int} (hw0 : 0 ≤ w) (hw : w ≤ 1000) (hN : 0 ≤ dN) (hF : 0 ≤ dF) :
    let g := split h w dN dF
    g.near + g.far ≤ max h 0 ∧ (0 ≤ g.near ∧ g.near ≤ dN) ∧ 0 ≤ g.far ∧ g.far ≤ dF := by
  rcases Int.lt_or_le 0 h with hh | hh
  · rcases Int.lt_or_le h (dN + dF) with hd | hd
    · obtain ⟨share0, shareH⟩ := share_bounds (Int.le_of_lt hh) hw0 hw
      rw [split_shares w hh hd]
      dsimp only
      omega
    · rw [split_covers w hh hd]
      dsimp only
      omega
  · rw [split_none w dN dF hh]
    dsimp only
    omega

/-- Settles O26: each branch of the split keeps within its bounds, and rounding down keeps them. -/
theorem grantsStayWithinTheHeadroom : Obligations.GrantsStayWithinTheHeadroom := by
  unfold Obligations.GrantsStayWithinTheHeadroom
  intro h w dN dF hw0 hw hN hF g
  obtain ⟨hsum, ⟨hn0, hn⟩, hf0, hf⟩ := split_bounds (h := h) hw0 hw hN hF
  have hgn : g.near = downTo 25 (split h w dN dF).near := rfl
  have hgf : g.far = downTo 25 (split h w dN dF).far := rfl
  obtain ⟨nearStep, nearLe, -⟩ := downTo_bounds (split h w dN dF).near
  obtain ⟨farStep, farLe, -⟩ := downTo_bounds (split h w dN dF).far
  refine ⟨by omega, hgn ▸ downTo_nonneg hn0, by omega, hgf ▸ downTo_nonneg hf0, by omega,
    hgn ▸ nearStep, hgf ▸ farStep, fun hh => ?_, fun hh hd => ?_,
    fun hh hd nearFirst far near hfirst hfar hnear => ?_⟩
  · show grants h w dN dF = _
    rw [grants, split_none w dN dF hh]
    rfl
  · show grants h w dN dF = _
    rw [grants, split_covers w hh hd]
    rfl
  · show grants h w dN dF = _
    rw [grants, split_shares w hh hd, hnear, hfar, hfirst]
    rfl

end Sys2Proof.Machine
end

section
/-! PROOFS. The frame of the allocator in the words of Safety.lean: what it reads, its headroom and capped demands, the conditions of a transfer, the sharing of the discharge and the closing conditions (R84 to R104). -/

namespace Sys2Proof.Machine

/-! ### Readings -/

theorem usable_iff (age : Nat) : usable age = true ↔ age ≤ 2 := decide_eq_true_iff

/-- A frame's set passes the HOLD test with VBUS, VSYS and ILOAD usable (R84). -/
theorem holdTest_iff (m : MeasSet) : holdTest m = true ↔ m.age.vbus ≤ 2 ∧ m.age.vsys ≤ 2 ∧ m.age.iload ≤ 2 := by
  simp only [holdTest, Bool.and_eq_true, usable_iff, and_assoc]

/-- The magnitude of a difference, as the model and as the statements write it. -/
theorem absDelta_eq (delta : Int) : absDelta delta = delta.natAbs := by
  unfold absDelta
  split <;> omega

namespace State
variable (s : State) (m : MeasSet)

theorem inputActive_iff : s.inputActive = true ↔ s.input.state = .active := beq_iff_eq

theorem inputActive_eq_false_iff : s.inputActive = false ↔ s.input.state ≠ .active := beq_eq_false_iff_ne

/-! ### Capacity, headroom and capped demands (R86 to R89) -/

theorem capOut_active (h : s.input.state = .active) :
    s.capOut m = ((s.input.ilim * m.value.vbus * s.tables.limits.getD 3 0).fdiv
      (max 3000 m.value.vsys * 1000) * s.input.sd).fdiv 1000 :=
  if_pos (s.inputActive_iff.2 h)

theorem headroom_active (h : s.input.state = .active) :
    s.headroom m = s.capOut m - m.value.iload - s.tables.limits.getD 4 0 :=
  if_pos (s.inputActive_iff.2 h)

theorem capOut_other (h : s.input.state ≠ .active) : s.capOut m = 0 :=
  if_neg fun hc => h (s.inputActive_iff.1 hc)

theorem headroom_other (h : s.input.state ≠ .active) : s.headroom m = -m.value.iload :=
  if_neg fun hc => h (s.inputActive_iff.1 hc)

theorem cappedNear_eq :
    s.cappedNear = if s.path.near.restriction = .blockCharge ∨ s.path.near.restriction = .blockAll then 0
      else s.seq.near.demand := by
  simp only [cappedNear, Restriction.blocksCharge_eq, decide_eq_true_eq]

/-- The caps of the far cell: its restriction, HINGE_CAP while the hinge is not settled, and FLEX_CAP above
RF_MAX (R89). -/
theorem cappedFar_eq :
    s.cappedFar m = if s.path.far.restriction = .blockCharge ∨ s.path.far.restriction = .blockAll then 0
      else
        let held := if s.hinge.settled then s.seq.far.demand
          else min s.seq.far.demand (s.tables.limits.getD 7 0)
        if m.flexValid = true ∧ s.tables.limits.getD 9 0 < m.rflex then
          min held (s.tables.limits.getD 10 0)
        else held := by
  simp only [cappedFar, hingeFlexCapped, Restriction.blocksCharge_eq, decide_eq_true_eq, Bool.and_eq_true]
  rfl

/-- The grants of a frame are those of its headroom, its near share and its capped demands (R90 to R92). -/
theorem frameGrants_eq :
    let h := s.headroom m
    let nearFirst := min s.cappedNear
      ((h * nearShare (Balance.gain s.tables.balance) s.delta).fdiv 1000)
    let far := min (s.cappedFar m) (h - nearFirst)
    let near := min s.cappedNear (h - far)
    s.frameGrants m =
      if h ≤ 0 then ⟨0, 0⟩
      else if s.cappedNear + s.cappedFar m ≤ h then
        ⟨s.cappedNear.fdiv 25 * 25, (s.cappedFar m).fdiv 25 * 25⟩
      else ⟨near.fdiv 25 * 25, far.fdiv 25 * 25⟩ := by
  dsimp only
  unfold frameGrants grants split
  split
  · rfl
  · split <;> rfl

/-- The mode of a frame (R85). -/
theorem frameMode_eq :
    s.frameMode m =
      if s.input.state = .active then
        if 0 < s.headroom m ∧ s.frameGrants m ≠ ⟨0, 0⟩ then .charge
        else if 0 ≤ s.headroom m then .idleSupply else .supplement
      else if s.alloc.transfer.active then .transfer else .battery := by
  have granted (g : PerCell Int) : g.near ≠ 0 ∨ g.far ≠ 0 ↔ g ≠ ⟨0, 0⟩ := by
    cases g
    simp only [ne_eq, PerCell.mk.injEq]
    omega
  unfold frameMode modeOf
  by_cases h : s.input.state = .active
  · simp only [s.inputActive_iff.2 h, h, granted, Bool.not_true, Bool.false_eq_true, if_true, if_false]
  · simp only [s.inputActive_eq_false_iff.2 h, h, Bool.not_false, if_true, if_false]

/-! ### The conditions of a transfer (R101, R104) -/

theorem receiverBarred_iff (c : Cell) : s.receiverBarred c = true ↔ BarredAsReceiver s c := by
  simp only [receiverBarred, Seq.bandBars, Bool.or_eq_true, beq_iff_eq, or_assoc]

/-- The start conditions that the model tests for a receiver are those of R101. -/
theorem mayStart_iff (c : Cell) : s.mayStart m s.delta c = true ↔ MayTransferTo s m c := by
  have barred : (!s.receiverBarred c) = true ↔ ¬ BarredAsReceiver s c := by
    rw [Bool.not_eq_true', ← receiverBarred_iff, Bool.not_eq_true]
  simp only [mayStart, Bool.and_eq_true, decide_eq_true_eq, beq_iff_eq, barred, absDelta_eq, and_assoc]
  exact Iff.rfl

/-- The frame checks that the model makes of a transfer in progress are those of R104. -/
theorem transferCheck_eq (donor receiver : Cell) :
    s.transferCheck m s.delta donor receiver = endingCheck s m donor receiver := by
  simp only [transferCheck, absDelta_eq, receiverBarred_iff]
  rfl

end State

/-! ### Sharing the discharge (R94 to R97) -/

/-- The limited cell of a sharing with its limit; none for the limit that HINGE_CAP brings to 0. -/
def Sharing.cell : Sharing → Option (Cell × Option Int)
  | .none => Option.none
  | .limited c l => some (c, some l)
  | .farDiode => some (.far, Option.none)

theorem Sharing.recorded_eq (sh : Sharing) :
    sh.recorded = sh.cell.bind fun p => p.2.map fun l => (p.1, l) := by cases sh <;> rfl

/-- The limit of the lower cell that the model computes is that of R94 and of steps 1 and 2 of R95. -/
theorem dischargeLimit_eq (s : State) (deficit delta : Int) :
    dischargeLimit (Balance.gain s.tables.balance) s.factory.idisMax deficit delta
      = lowerLimit s deficit delta := by
  have magnitude : (if delta < 0 then -delta else delta) = delta.natAbs := absDelta_eq delta
  have floor : upTo 25 (deficit - s.factory.idisMax) = -((s.factory.idisMax - deficit).fdiv 25 * 25) := by
    rw [upTo, downTo, Int.neg_sub]
  simp only [dischargeLimit, lowerLimit, magnitude, floor]
  rfl

namespace State
variable (s : State) (m : MeasSet)

/-- Discharge sharing limits the cell that R94 and R95 name. -/
theorem sharing_cell (h delta : Int) : (s.sharing h delta).cell = limitedCell s (-h) delta := by
  have dead : -Balance.deadband s.tables.balance ≤ delta ∧ delta ≤ Balance.deadband s.tables.balance
      ↔ (delta.natAbs : Int) ≤ s.tables.balance.getD 1 0 := by
    show _ ↔ (delta.natAbs : Int) ≤ Balance.deadband s.tables.balance
    omega
  have capped : hingeCapped (Limits.hingeCap s.tables.limits) (lowerLimit s (-h) delta)
      = (min (lowerLimit s (-h) delta) (s.tables.limits.getD 7 0)).fdiv 25 * 25 := rfl
  simp only [sharing, limitedCell, dead, dischargeLimit_eq, capped]
  split
  · rfl
  · split
    · rfl
    · split
      · rfl
      · split <;> rfl

/-- The closing conditions that the model tests are those of R97. -/
theorem mayClose_iff (c : Cell) : s.mayClose m c = true ↔ Closes s m c := by
  have window (d win : Int) (P : Prop) : -win ≤ d ∧ d ≤ win ∧ P ↔ (d.natAbs : Int) ≤ win ∧ P := by
    rw [← and_assoc]
    exact and_congr_left fun _ => by omega
  simp only [mayClose, Bool.and_eq_true, decide_eq_true_eq, beq_iff_eq, usable_iff, and_assoc, window]
  exact Iff.rfl

theorem closeOrDiode_eq (c : Cell) : s.closeOrDiode m c = if Closes s m c then .closed else .diode := by
  simp only [closeOrDiode, mayClose_iff]

theorem supplementOrder_eq (sh : Sharing) (c : Cell) :
    supplementOrder sh c = sharedOrder sh.cell (fun _ => .diode) c := by
  cases sh with
  | none => rfl
  | limited d l => rfl
  | farDiode => cases c <;> rfl

theorem batteryOrder_eq (sh : Sharing) (c : Cell) :
    s.batteryOrder m sh c
      = sharedOrder sh.cell (fun d => if Closes s m d then .closed else .diode) c := by
  cases sh <;> simp only [batteryOrder, closeOrDiode_eq, sharedOrder, Sharing.cell] <;> rfl

/-- Stage 6 is taken in SUPPLEMENT and BATTERY alone (R84, R94). -/
theorem frameSharing_eq :
    s.frameSharing m = if s.frameMode m = .supplement ∨ s.frameMode m = .battery then
      s.sharing (s.headroom m) s.delta else .none := by
  unfold frameSharing
  cases s.frameMode m <;> rfl

/-- The record holds the limit of the cell that is limited (R83, R94). -/
theorem frameRecord_limit :
    (s.frameRecord m).limit = if s.frameMode m = .supplement ∨ s.frameMode m = .battery then
      (limitedCell s (-s.headroom m) s.delta).bind fun p => p.2.map fun l => (p.1, l) else none := by
  show (s.frameSharing m).recorded = _
  rw [frameSharing_eq]
  split
  · rw [Sharing.recorded_eq, sharing_cell]
  · rfl

/-! ### The orders by mode (R96, R97) -/

/-- Each path's order in the record is the one that stage 7 gives it. -/
theorem frameRecord_order (c : Cell) :
    (s.frameRecord m).order.get c
      = s.orderOf m (s.frameMode m) (s.frameGrants m) (s.frameSharing m) c := by cases c <;> rfl

theorem order_charge (h : s.frameMode m = .charge) :
    (s.frameRecord m).order = (s.frameGrants m).map fun g => if g = 0 then .diode else .regulate g := by
  refine PerCell.ext_get fun c => ?_
  rw [frameRecord_order, h, PerCell.get_map]
  rfl

theorem order_idleSupply (h : s.frameMode m = .idleSupply) :
    (s.frameRecord m).order = ⟨.diode, .diode⟩ := by
  refine PerCell.ext_get fun c => ?_
  rw [frameRecord_order, h]
  cases c <;> rfl

theorem order_transfer (h : s.frameMode m = .transfer) (c : Cell) :
    (s.frameRecord m).order.get c =
      if s.alloc.transfer.receiver = some c then .regulate s.alloc.transfer.current else .diode := by
  rw [frameRecord_order, h]
  rfl

theorem order_supplement (h : s.frameMode m = .supplement) (c : Cell) :
    (s.frameRecord m).order.get c
      = sharedOrder (limitedCell s (-s.headroom m) s.delta) (fun _ => .diode) c := by
  rw [frameRecord_order, frameSharing_eq, h, if_pos (.inl rfl), ← sharing_cell]
  exact supplementOrder_eq ..

theorem order_battery (h : s.frameMode m = .battery) (c : Cell) :
    (s.frameRecord m).order.get c
      = sharedOrder (limitedCell s (-s.headroom m) s.delta)
          (fun d => if Closes s m d then .closed else .diode) c := by
  rw [frameRecord_order, frameSharing_eq, h, if_pos (.inr rfl), ← sharing_cell]
  exact s.batteryOrder_eq m ..

end State

end Sys2Proof.Machine
end

section
/-! PROOFS. The transfer step of a frame and the frame that publishes its record: HOLD, and the frame that passes the HOLD test (R82 to R107). -/

namespace Sys2Proof.Machine

namespace State
variable (s : State) (m : MeasSet)

/-! ### The transfer step (R102, R104, R106, R107) -/

/-- With the input not ACTIVE a transfer in progress counts the frame and takes its checks. -/
theorem transferStep_inProgress (delta : Int) (hi : s.inputActive = false)
    (ha : s.alloc.transfer.active = true) :
    s.transferStep m delta = s.coolDown.countFrame.checkTransfer m delta := by
  have hic : s.coolDown.inputActive = false := hi
  have hac : s.coolDown.alloc.transfer.active = true := ha
  simp only [transferStep, hic, hac, Bool.false_eq_true, if_false, if_true]

/-- With the input not ACTIVE and no transfer in progress, one starts to the lower cell or none does. -/
theorem transferStep_none (hi : s.inputActive = false) (ha : s.alloc.transfer.active = false) :
    s.transferStep m s.delta =
      if s.alloc.transfer.cooldown ≤ 1 ∧ MayTransferTo s m (lowerCell s.delta) then
        s.coolDown.startTransfer (lowerCell s.delta)
      else s.coolDown := by
  have hic : s.coolDown.inputActive = false := hi
  have hac : s.coolDown.alloc.transfer.active = false := ha
  have cooled : s.coolDown.alloc.transfer.cooldown = 0 ↔ s.alloc.transfer.cooldown ≤ 1 :=
    Nat.sub_eq_zero_iff_le
  have may : s.coolDown.mayStart m s.delta (lowerCell s.delta) = true
      ↔ MayTransferTo s m (lowerCell s.delta) := s.mayStart_iff m _
  simp only [transferStep, hic, hac, Bool.false_eq_true, if_false, cooled, may]

/-- The frame checks of a transfer in progress, between the cells that it names. -/
theorem checkTransfer_eq {d r : Cell} (hd : s.alloc.transfer.donor = some d)
    (hr : s.alloc.transfer.receiver = some r) :
    s.checkTransfer m s.delta = (endingCheck s m d r).elim s s.endTransfer := by
  simp only [checkTransfer, hd, hr, transferCheck_eq]
  cases endingCheck s m d r <;> rfl

theorem lowerCell_delta : lowerCell s.delta = if s.soc .near < s.soc .far then .near else .far := by
  simp only [lowerCell, delta, Int.sub_pos]

/-- What the transfer step does to the transfer record and to the link. -/
theorem transferStep_stepped :
    TransferStepped s m s.alloc.frame.number (s.transferStep m s.delta) := by
  refine ⟨fun hi => ?_, fun hi ha d r hd hr => ?_, fun hi ha => ?_⟩
  · rw [s.transferStep_active m _ (s.inputActive_iff.2 hi)]
    exact ⟨rfl, rfl⟩
  · have counted : s.transferStep m s.delta
        = (endingCheck s m d r).elim s.coolDown.countFrame s.coolDown.countFrame.endTransfer := by
      rw [s.transferStep_inProgress m _ (s.inputActive_eq_false_iff.2 hi) ha]
      exact checkTransfer_eq s.coolDown.countFrame m hd hr
    have frames := countUpTo_eq_min 65535 s.alloc.transfer.frames
    rw [counted]
    refine ⟨fun hpass => ?_, fun cause hends => ?_⟩
    · rw [hpass, ← frames]
      exact ⟨rfl, rfl⟩
    · rw [hends, ← frames, ← hd, ← hr]
      exact ⟨rfl, rfl⟩
  · rw [s.transferStep_none m (s.inputActive_eq_false_iff.2 hi) ha, lowerCell_delta]
    generalize (if s.soc .near < s.soc .far then Cell.near else Cell.far) = receiver
    refine ⟨fun starts => ?_, fun rests => ?_, ?_⟩
    · rw [if_pos starts]
      rfl
    · rw [if_neg rests]
      rfl
    · split <;> rfl

/-! ### The transfer in a HOLD frame (R84, R105, R107) -/

theorem holdTransfer_inProgress (h : s.alloc.transfer.active = true) :
    s.holdTransfer.alloc.transfer = { s.alloc.transfer with
        active := false, lastEnd := .stale, cooldown := (s.tables.balance.getD 8 0).toNat }
      ∧ s.holdTransfer.link = s.link.notify s.alloc.frame.number
          (.transfer .stale s.alloc.transfer.donor s.alloc.transfer.receiver s.alloc.transfer.moved
            s.alloc.transfer.frames) := by
  have ended : s.holdTransfer = s.coolDown.endTransfer .stale := if_pos h
  rw [ended]
  exact ⟨rfl, rfl⟩

theorem holdTransfer_none (h : s.alloc.transfer.active = false) :
    s.holdTransfer.alloc.transfer = { s.alloc.transfer with cooldown := s.alloc.transfer.cooldown - 1 }
      ∧ s.holdTransfer.link = s.link := by
  have rests : s.holdTransfer = s.coolDown := if_neg (Bool.eq_false_iff.1 h)
  rw [rests]
  exact ⟨rfl, rfl⟩

/-! ### The frame (R82, R84) -/

/-- The state in the next frame, with the transfer record and the link that its transfer step leaves. -/
def inFrame (transfer : TransferRecord) (link : Link) : State :=
  { s with
    alloc := { s.alloc with
      frame := { s.alloc.frame with number := nextFrame s.alloc.frame.number }, transfer := transfer }
    link := link }

/-- A frame that passes the HOLD test takes the transfer step and publishes the record of the state after
it. -/
theorem takeFrame_passes (h : holdTest m = true) :
    ∃ (transfer : TransferRecord) (link : Link),
      s.takeFrame m
          = (s.inFrame transfer link).publishFrame ((s.inFrame transfer link).frameRecord m)
        ∧ TransferStepped s m (nextFrame s.alloc.frame.number) (s.inFrame transfer link) := by
  have step := s.startFrame.transferStep_stepped m
  have frame := s.startFrame.transferStep_frame m s.startFrame.delta
  refine ⟨(s.startFrame.transferStep m s.startFrame.delta).alloc.transfer,
    (s.startFrame.transferStep m s.startFrame.delta).link, ?_, step⟩
  rw [takeFrame, if_pos h]
  dsimp only
  rw [frame]
  rfl

/-- A HOLD frame publishes the HOLD record of the state after the transfer's part. -/
theorem takeFrame_holds (h : holdTest m = false) :
    let u := s.inFrame s.startFrame.holdTransfer.alloc.transfer s.startFrame.holdTransfer.link
    s.takeFrame m = u.publishFrame (u.holdRecord m) := by
  have frame := s.startFrame.holdTransfer_frame
  rw [takeFrame, if_neg (Bool.eq_false_iff.1 h)]
  dsimp only
  rw [frame]
  rfl

/-- ALLOCATION_FRAME takes a frame on the oldest set that waits. -/
theorem exec_allocationFrame {m : MeasSet} {rest : List MeasSet} (h : s.handed.allocSet = m :: rest) :
    exec .allocationFrame s = .next ((s.setHanded { s.handed with allocSet := rest }).takeFrame m) := by
  show execAllocationFrame s = _
  rw [execAllocationFrame, h]

end State

/-- Settles O24: a HOLD frame with and without a transfer in progress. -/
theorem holdFrameOrdersDiode : Obligations.HoldFrameOrdersDiode := by
  unfold Obligations.HoldFrameOrdersDiode
  intro s m rest hset hage
  have hold : holdTest m = false := by
    rw [← Bool.not_eq_true, holdTest_iff]
    omega
  rw [s.exec_allocationFrame hset, (s.setHanded { s.handed with allocSet := rest }).takeFrame_holds m hold]
  exact ⟨_, rfl, rfl, rfl, rfl, rfl,
    (s.setHanded { s.handed with allocSet := rest }).startFrame.holdTransfer_inProgress,
    (s.setHanded { s.handed with allocSet := rest }).startFrame.holdTransfer_none⟩

/-- Settles O25: the frame's record is read off the state after the transfer step, part by part, and the
transfer step is that of R102. -/
theorem frameGrantsAndOrdersByMode : Obligations.FrameGrantsAndOrdersByMode := by
  unfold Obligations.FrameGrantsAndOrdersByMode
  intro s m rest hset hvbus hvsys hiload
  obtain ⟨transfer, link, htake, step⟩ :=
    (s.setHanded { s.handed with allocSet := rest }).takeFrame_passes m
      ((holdTest_iff m).2 ⟨hvbus, hvsys, hiload⟩)
  rw [s.exec_allocationFrame hset, htake]
  refine ⟨_, rfl, rfl, rfl, rfl, ?_⟩
  have kept (hi : s.input.state = .active) : transfer.active = s.alloc.transfer.active := by
    have cooled : transfer = { s.alloc.transfer with cooldown := s.alloc.transfer.cooldown - 1 } :=
      (step.1 hi).1
    rw [cooled]
  exact ⟨rfl, rfl, rfl, rfl, rfl, rfl, rfl, rfl,
    fun hi => ⟨State.capOut_active _ m hi, State.headroom_active _ m hi⟩,
    fun hi => ⟨State.capOut_other _ m hi, State.headroom_other _ m hi⟩,
    rfl, State.cappedNear_eq _, State.cappedFar_eq _ m, State.frameGrants_eq _ m, rfl,
    kept, State.frameMode_eq _ m, State.order_charge _ m, State.order_idleSupply _ m, State.order_transfer _ m,
    step, State.frameRecord_limit _ m, State.order_supplement _ m, State.order_battery _ m⟩

end Sys2Proof.Machine
end

section
/-! PROOFS. What ends a transfer or changes the grants between frames: the events that wait, the withdrawal of the input, the hinge becoming unsettled, and BALANCE (R83, R93, R100, R105, R106, R123, R137). -/

namespace Sys2Proof.Machine

/-! ### Events that end a transfer (R105, R137) -/

theorem Handed.takeEvent_waiting {h : Handed} {e : TransferEvent} (he : e ≠ .inputGranted)
    (hw : e ∈ h.transfer) : h.takeEvent e = some { h with transfer := h.transfer.erase e } := by
  rw [takeEvent, if_neg he, if_pos hw]

theorem Handed.takeEvent_granted {h : Handed} {rest : List InputSignal}
    (hs : h.allocSignal = .granted :: rest) :
    h.takeEvent .inputGranted = some { h with allocSignal := rest } := by
  rw [takeEvent, if_pos rfl, hs]

theorem Handed.takeEvent_withdrawn {h : Handed} {rest : List InputSignal}
    (hs : h.allocSignal = .withdrawn :: rest) : h.takeEvent .inputGranted = none := by
  rw [takeEvent, if_pos rfl, hs]

/-- Every event but an inhibit ends a transfer in progress, and an inhibit does so on the receiver (R105). -/
theorem eventEnds_inhibit (t : TransferRecord) (c : Cell) :
    eventEnds t (.inhibit c) = true ↔ t.receiver = some c := beq_iff_eq

/-- Carrying out an event that waits. -/
def State.onTransferEvent (s : State) (e : TransferEvent) : State :=
  if eventEnds s.alloc.transfer e then s.endTransferOnEvent (eventCause e) else s

theorem exec_transferEventEnd {s : State} {e : TransferEvent} {h : Handed}
    (ht : s.handed.takeEvent e = some h) :
    exec (.transferEventEnd e) s = .next ((s.setHanded h).onTransferEvent e) := by
  show execTransferEventEnd e s = _
  simp only [execTransferEventEnd, ht, State.onTransferEvent, State.setHanded_alloc]
  exact (apply_ite Host.Outcome.next _ _ _).symm

theorem exec_transferEventEnd_none {s : State} {e : TransferEvent} (ht : s.handed.takeEvent e = none) :
    exec (.transferEventEnd e) s = .next s := by
  show execTransferEventEnd e s = _
  simp only [execTransferEventEnd, ht]

theorem State.onTransferEvent_idle {s : State} (e : TransferEvent) (h : s.alloc.transfer.active = false) :
    s.onTransferEvent e = s := by
  unfold onTransferEvent
  split
  · exact s.endTransferOnEvent_idle _ h
  · rfl

/-! ### The grants of the record (R93) -/

/-- With no transfer in progress the grants ahead of a withdrawal are taken with no effect (R105). -/
theorem State.allocSignals_withdrawn {s : State} {n : Nat} {rest : List InputSignal}
    (hs : s.handed.allocSignal = List.replicate n .granted ++ .withdrawn :: rest)
    (h : n = 0 ∨ s.alloc.transfer.active = false) : s.allocSignals = .withdrawn :: rest := by
  have dropped : s.handed.allocSignal.dropWhile (· == .granted) = .withdrawn :: rest := by
    rw [hs, List.dropWhile_append_of_pos (by simp)]
    rfl
  unfold allocSignals
  split
  · rename_i ha
    obtain rfl : n = 0 := h.resolve_right fun hn => Bool.eq_false_iff.1 hn ha
    exact hs
  · exact dropped

theorem exec_grantsCleared {s : State} {rest : List InputSignal} (h : s.allocSignals = .withdrawn :: rest) :
    exec .grantsClearedOnWithdrawal s
      = .next ((s.setHanded { s.handed with allocSignal := rest }).setGrants ⟨0, 0⟩) := by
  show execGrantsClearedOnWithdrawal s = _
  rw [execGrantsClearedOnWithdrawal, h]

theorem exec_grantsCleared_behindGrant {s : State} {rest : List InputSignal}
    (h : s.allocSignals = .granted :: rest) : exec .grantsClearedOnWithdrawal s = .next s := by
  show execGrantsClearedOnWithdrawal s = _
  rw [execGrantsClearedOnWithdrawal, h]

theorem exec_farGrantHingeCap {s : State} {n : Nat} (h : s.handed.grantHinge = n + 1) :
    exec .farGrantHingeCap s = .next ((s.setHanded { s.handed with grantHinge := n }).setGrants
      { s.alloc.frame.grant with
        far := hingeCapped (Limits.hingeCap s.tables.limits) s.alloc.frame.grant.far }) := by
  show execFarGrantHingeCap s = _
  rw [execFarGrantHingeCap, h]

/-- Settles O27: an event that waits is taken and carried out, the withdrawal clears the grants once the
grants ahead of it are gone, and the hinge event caps the far grant. -/
theorem eventsBetweenFramesEndTransfersAndCutGrants :
    Obligations.EventsBetweenFramesEndTransfersAndCutGrants := by
  unfold Obligations.EventsBetweenFramesEndTransfersAndCutGrants
  refine ⟨fun s e h hwaits => ?_, fun s rest => ⟨fun n hs hn => ?_, fun hs => ?_, fun hs ha => ?_⟩,
    fun s n hn => ?_⟩
  · have taken : s.handed.takeEvent e = some h := by
      obtain ⟨he, hw, rfl⟩ | ⟨rfl, rest, hs, rfl⟩ := hwaits
      · exact Handed.takeEvent_waiting he hw
      · exact Handed.takeEvent_granted hs
    intro u cause
    have cause_eq : cause = if eventEnds s.alloc.transfer e then some (eventCause e) else none := by
      cases e with
      | inhibit c => simp only [cause, eventEnds_inhibit]; rfl
      | inputGranted | hingeUnsettled | restriction | sysUv => rfl
    refine ⟨u.onTransferEvent e, exec_transferEventEnd taken, u.onTransferEvent_idle e, fun hn => ?_,
      fun x hx ha => ?_⟩
    · refine if_neg fun hends : eventEnds s.alloc.transfer e = true => ?_
      rw [cause_eq, if_pos hends] at hn
      cases hn
    · by_cases hends : eventEnds s.alloc.transfer e = true
      · rw [cause_eq, if_pos hends] at hx
        obtain rfl : eventCause e = x := Option.some.inj hx
        have ended : u.onTransferEvent e = u.endTransferOnEvent (eventCause e) := if_pos hends
        rw [ended]
        exact u.endTransferOnEvent_ended _ ha
      · rw [cause_eq, if_neg hends] at hx
        cases hx
  · rw [exec_grantsCleared (State.allocSignals_withdrawn hs hn)]
    rfl
  · exact exec_transferEventEnd_none (Handed.takeEvent_withdrawn hs)
  · exact exec_grantsCleared_behindGrant ((if_pos ha).trans hs)
  · rw [exec_farGrantHingeCap hn]
    rfl

/-! ### BALANCE (R100) -/

namespace State
variable (s : State)

theorem readBalance_eq (func : Byte) :
    s.readBalance func = ⟨s, if func = 0 then .ok else .badArg, s.balanceBody⟩ := by
  unfold readBalance
  split <;> rfl

/-- DISABLE leaves a part with no transfer in progress but for the enable. -/
theorem disableTransfer_idle (h : s.alloc.transfer.active = false) :
    s.disableTransfer.state = s.setEnable false := endTransferOnEvent_idle _ _ h

/-- DISABLE ends a transfer in progress with HOST. -/
theorem disableTransfer_ended (h : s.alloc.transfer.active = true) :
    TransferEnded (s.setEnable false) .host s.disableTransfer.state := endTransferOnEvent_ended _ _ h

end State

/-- Settles O36: each function is carried out, and the ends are those of an event between frames. -/
theorem balanceSetsTheEnableAndEndsTransfers : Obligations.BalanceSetsTheEnableAndEndsTransfers := by
  unfold Obligations.BalanceSetsTheEnableAndEndsTransfers
  intro s tag func hrun enabled
  refine ⟨?_, s.request_running .balance tag State.enableTransfer hrun,
    ⟨s.disableTransfer.state, s.request_running .balance tag State.disableTransfer hrun,
      s.disableTransfer_idle, s.disableTransfer_ended⟩,
    ⟨s.cancelTransfer.state, s.request_running .balance tag State.cancelTransfer hrun,
      s.endTransferOnEvent_idle .host, s.endTransferOnEvent_ended .host⟩⟩
  rw [← s.readBalance_eq func]
  exact s.request_running .balance tag (State.readBalance func) hrun

end Sys2Proof.Machine
end

section
/-! PROOFS. The hinge monitor: its filters agree with their timers, and every change of a raw level, of the position, of the settle timer and of the start-up sample keeps it consistent (R146 to R155). -/

namespace Sys2Proof.Machine

/-! ### The hinge monitor (R146 to R155) -/

/-- The filter timer runs exactly while the raw level differs from the filtered one (R147). -/
abbrev Filtered.Agrees (f : Filtered) : Prop := f.timer.isSome ↔ f.raw ≠ f.level

theorem Filtered.expire_agrees (f : Filtered) : f.expire.Agrees := by simp [Agrees, expire]

theorem Filtered.rawTo_agrees {f : Filtered} (h : f.Agrees) (time : Nat) (raw : Bool) :
    (f.rawTo time raw).Agrees := by
  unfold rawTo
  split
  · exact h
  · by_cases hr : raw = f.level <;> simp [Agrees, hr]

@[simp] theorem countDown_isSome (t : Option Nat) : (countDown t).isSome = t.isSome := by
  simp [countDown]

theorem countDown_eq_none {t : Option Nat} : countDown t = none ↔ t = none := by simp [countDown]

namespace Hinge

/-- A change of the raw level of one filter leaves the filtered levels. -/
theorem setFilter_atStop {h : Hinge} (f : FoldSense) {v : Filtered} (hv : v.level = (h.filter f).level) :
    AtStop (h.setFilter f v) ↔ AtStop h := by
  have same : (h.setFilter f v).position = h.position := by
    cases f <;> simp only [filter] at hv <;> simp only [setFilter, position, hv]
  rw [AtStop, same]

/-- A hinge at a stop with the filters in agreement, as the settle time begins (R149). -/
theorem settling_ok {h : Hinge} (n : Nat) (hstop : AtStop h) (hconf : h.conflicts ≤ 255)
    (hstart : h.startup = none) (hA : h.foldA.Agrees) (hB : h.foldB.Agrees) :
    HingeOk true { h with settled := n == 0, settle := if n = 0 then none else some n } := by
  refine ⟨fun _ => hstop, fun hs => ⟨hstop, ?_⟩, hconf, ?_, ?_, fun _ _ => ⟨hA, hB⟩, ?_⟩
  · by_cases hn : n = 0 <;> simp_all
  · simp [hstart]
  · simp [hstart]
  · simp

/-- A hinge away from the stops with the filters in agreement (R149, R153). -/
theorem unsettled_ok {h : Hinge} {n : Nat} (hconf : n ≤ 255)
    (hstart : h.startup = none) (hA : h.foldA.Agrees) (hB : h.foldB.Agrees) :
    HingeOk true { h with settled := false, settle := none, conflicts := n } := by
  refine ⟨by simp, by simp, hconf, ?_, ?_, fun _ _ => ⟨hA, hB⟩, by simp⟩
  · simp
  · simp [hstart]

/-- A change of position leaves the monitor consistent once its filters agree and no start-up sample runs. -/
theorem onPosition_ok {h : Hinge} (n : Nat) (hconf : h.conflicts ≤ 255) (hstart : h.startup = none)
    (hA : h.foldA.Agrees) (hB : h.foldB.Agrees) : HingeOk true (h.onPosition n) := by
  unfold onPosition
  split
  · rename_i hp
    exact settling_ok n (.inl hp) hconf hstart hA hB
  · rename_i hp
    exact settling_ok n (.inr hp) hconf hstart hA hB
  · exact unsettled_ok hconf hstart hA hB
  · refine unsettled_ok ?_ hstart hA hB
    rw [countUpTo_eq_min]
    exact Nat.min_le_left ..

/-! ### What a filter's replacement leaves -/

@[simp] theorem setFilter_settled (h : Hinge) (f : FoldSense) (v : Filtered) :
    (h.setFilter f v).settled = h.settled := by cases f <;> rfl
@[simp] theorem setFilter_settle (h : Hinge) (f : FoldSense) (v : Filtered) :
    (h.setFilter f v).settle = h.settle := by cases f <;> rfl
@[simp] theorem setFilter_startup (h : Hinge) (f : FoldSense) (v : Filtered) :
    (h.setFilter f v).startup = h.startup := by cases f <;> rfl
@[simp] theorem setFilter_conflicts (h : Hinge) (f : FoldSense) (v : Filtered) :
    (h.setFilter f v).conflicts = h.conflicts := by cases f <;> rfl

/-- What holds of both filters holds after one has been replaced by another of which it holds. -/
theorem setFilter_both {P : Filtered → Prop} {h : Hinge} (f : FoldSense) {v : Filtered}
    (hA : P h.foldA) (hB : P h.foldB) (hv : P v) :
    P (h.setFilter f v).foldA ∧ P (h.setFilter f v).foldB := by
  cases f
  · exact ⟨hv, hB⟩
  · exact ⟨hA, hv⟩

/-- What holds of both filters holds of each. -/
theorem filter_of_both {P : Filtered → Prop} {h : Hinge} (f : FoldSense) (hA : P h.foldA)
    (hB : P h.foldB) : P (h.filter f) := by
  cases f
  · exact hA
  · exact hB

/-! ### What happens to the monitor -/

section
variable {h : Hinge} {b : Bool}

/-- A filter timer that runs shows the part running and no start-up sample (R155). -/
theorem running_of_filter_timer (ok : HingeOk b h) {f : FoldSense} (ht : (h.filter f).timer ≠ none) :
    b = true ∧ h.startup = none := by
  obtain ⟨-, -, -, -, hstill, -, -⟩ := ok
  have runs : ¬ (b = false ∨ h.startup.isSome) := fun hc =>
    ht (filter_of_both (P := (·.timer = none)) f (hstill hc).1 (hstill hc).2)
  rw [not_or, Bool.not_eq_false, Option.not_isSome_iff_eq_none] at runs
  exact runs

/-- A raw change before the part is open (R155). -/
theorem rawOnly_ok (ok : HingeOk false h) (f : FoldSense) (raw : Bool) :
    HingeOk false (h.setFilter f ((h.filter f).rawOnly raw)) := by
  obtain ⟨-, -, hconf, -, hstill, -, hclosed⟩ := ok
  obtain ⟨hunsettled, hsettle, hstart⟩ := hclosed rfl
  obtain ⟨hA, hB⟩ := hstill (.inl rfl)
  have hf : (h.filter f).timer = none := filter_of_both (P := (·.timer = none)) f hA hB
  refine ⟨?_, ?_, by simpa using hconf, ?_, fun _ => setFilter_both (P := (·.timer = none)) f hA hB hf,
    by simp, fun _ => by simp [hunsettled, hsettle, hstart]⟩
  · simp [hunsettled]
  · simp [hsettle]
  · simp [hstart]

/-- A raw change during the start-up sample restarts the start-up timer (R155). -/
theorem startupRaw_ok (ok : HingeOk b h) (hstart : h.startup.isSome) (f : FoldSense) (raw : Bool) (n : Nat) :
    HingeOk true { h.setFilter f ((h.filter f).rawOnly raw) with startup := some n } := by
  obtain ⟨-, -, hconf, hsample, hstill, -, -⟩ := ok
  obtain ⟨hunsettled, hsettle⟩ := hsample hstart
  obtain ⟨hA, hB⟩ := hstill (.inr hstart)
  have hf : (h.filter f).timer = none := filter_of_both (P := (·.timer = none)) f hA hB
  refine ⟨?_, ?_, by simpa using hconf, fun _ => by simp [hunsettled, hsettle],
    fun _ => setFilter_both (P := (·.timer = none)) f hA hB hf, ?_, ?_⟩
  · simp [hunsettled]
  · simp [hsettle]
  · simp
  · simp

/-- A raw change that the filter follows (R147). -/
theorem rawTo_ok (ok : HingeOk true h) (hstart : h.startup = none) (f : FoldSense) (time : Nat) (raw : Bool) :
    HingeOk true (h.setFilter f ((h.filter f).rawTo time raw)) := by
  obtain ⟨hstop, hsettle, hconf, -, -, hfilter, -⟩ := ok
  obtain ⟨hA, hB⟩ := hfilter rfl hstart
  have level : ((h.filter f).rawTo time raw).level = (h.filter f).level := by
    unfold Filtered.rawTo
    split <;> rfl
  have agrees := Filtered.rawTo_agrees (filter_of_both (P := Filtered.Agrees) f hA hB) time raw
  refine ⟨?_, ?_, by simpa using hconf, ?_, ?_,
    fun _ _ => setFilter_both (P := Filtered.Agrees) f hA hB agrees, ?_⟩
  · rw [setFilter_settled, setFilter_atStop f level]
    exact hstop
  · rw [setFilter_settle, setFilter_settled, setFilter_atStop f level]
    exact hsettle
  · simp [hstart]
  · simp [hstart]
  · simp

/-- A filter's expiry changes the position, and the monitor follows it (R147, R149, R153). -/
theorem filterExpiry_ok (ok : HingeOk b h) {f : FoldSense} (ht : (h.filter f).timer ≠ none) (n : Nat) :
    HingeOk b ((h.setFilter f (h.filter f).expire).onPosition n) := by
  obtain ⟨rfl, hstart⟩ := running_of_filter_timer ok ht
  obtain ⟨-, -, hconf, -, -, hfilter, -⟩ := ok
  obtain ⟨hA, hB⟩ := hfilter rfl hstart
  obtain ⟨hA', hB'⟩ := setFilter_both (P := Filtered.Agrees) f hA hB (Filtered.expire_agrees (h.filter f))
  exact onPosition_ok n (by simpa using hconf) (by simpa using hstart) hA' hB'

/-- The settle timer's expiry settles the hinge where it stands (R149). -/
theorem settled_ok (ok : HingeOk b h) (ht : h.settle.isSome) :
    HingeOk b { h with settled := true, settle := none } := by
  obtain ⟨-, hsettle, hconf, hsample, hstill, hfilter, hclosed⟩ := ok
  have hstart : h.startup.isSome → False := fun hs => by rw [(hsample hs).2] at ht; cases ht
  refine ⟨fun _ => (hsettle ht).1, by simp, hconf, fun hs => (hstart hs).elim, hstill, hfilter,
    fun hb => ?_⟩
  rw [(hclosed hb).2.1] at ht
  cases ht

/-- The start-up sample's end gives the first position (R155). -/
theorem startupExpiry_ok (ok : HingeOk b h) (ht : h.startup.isSome) (n : Nat) :
    HingeOk b (onPosition { h with foldA := h.foldA.expire, foldB := h.foldB.expire, startup := none } n) := by
  obtain ⟨-, -, hconf, -, -, -, hclosed⟩ := ok
  cases b with
  | false =>
    rw [(hclosed rfl).2.2] at ht
    cases ht
  | true => exact onPosition_ok n hconf rfl h.foldA.expire_agrees h.foldB.expire_agrees

/-- The completion of the power-on load starts the start-up sample (R155). -/
theorem opening_ok (ok : HingeOk false h) (n : Nat) : HingeOk true { h with startup := some n } := by
  obtain ⟨hstop, hsettle, hconf, -, hstill, -, hclosed⟩ := ok
  exact ⟨hstop, hsettle, hconf, fun _ => ⟨(hclosed rfl).1, (hclosed rfl).2.1⟩, fun _ => hstill (.inl rfl),
    by simp, by simp⟩

/-- Passing time leaves every timer running or stopped as it was. -/
theorem tick_ok (ok : HingeOk b h) :
    HingeOk b { h with
      foldA := h.foldA.tick, foldB := h.foldB.tick
      settle := countDown h.settle, startup := countDown h.startup } := by
  obtain ⟨hstop, hsettle, hconf, hsample, hstill, hfilter, hclosed⟩ := ok
  simp only [HingeOk, countDown_isSome, countDown_eq_none, Filtered.tick]
  exact ⟨hstop, hsettle, hconf, hsample, hstill, hfilter, hclosed⟩

/-- The monitor as power-on leaves it (R155). -/
theorem powerOn_ok (rawA rawB : Bool) : HingeOk false (powerOnHinge rawA rawB) := by
  simp [HingeOk, powerOnHinge, powerOnFiltered]

end

end Hinge

end Sys2Proof.Machine
end

section
/-! PROOFS. The guarded part of the state (the hinge monitor, the transfer, and what a transfer in progress hangs on), the ways in which it may change, and the operations that leave it alone (R99, R102, R104, R105). -/

namespace Sys2Proof.Machine

/-! ### The guarded part -/

/-- The hinge monitor and the transfer record; what bars a transfer; and the events that wait to end one. -/
structure Guarded where
  phase : Phase
  hinge : Hinge
  transfer : TransferRecord
  input : InputState
  restriction : PerCell Restriction
  signals : List InputSignal
  events : List TransferEvent

/-- The guarded part of a state. -/
def State.guarded (s : State) : Guarded where
  phase := s.phase
  hinge := s.hinge
  transfer := s.alloc.transfer
  input := s.input.state
  restriction := s.path.map (·.restriction)
  signals := s.handed.allocSignal
  events := s.handed.transfer

namespace Guarded

/-- The hinge monitor is consistent with the part's phase. -/
def Hinged (g : Guarded) : Prop := HingeOk (decide (g.phase = .running)) g.hinge

/-- Whatever bars a transfer has its event waiting to end one (R99, R105). -/
structure Awaited (g : Guarded) : Prop where
  input : g.input = .active → .granted ∈ g.signals
  hinge : g.hinge.settled = false → .hingeUnsettled ∈ g.events
  paths : ∀ c, g.restriction.get c ≠ .none → .restriction c ∈ g.events

/-- The hinge monitor is consistent, and a transfer in progress names its cells and runs only where nothing
bars it, but for an event that waits to end it. -/
structure Allowed (g : Guarded) : Prop where
  hinged : g.Hinged
  named : TransferNamed g.transfer
  awaited : g.transfer.active = true → g.Awaited

end Guarded

theorem State.guarded_allowed_iff (s : State) :
    s.guarded.Allowed ↔ HingeOk (decide (s.phase = .running)) s.hinge ∧ TransferNamed s.alloc.transfer
      ∧ TransferOk s := by
  have active : s.inputActive = true ↔ s.input.state = .active := beq_iff_eq
  constructor
  · rintro ⟨hinged, named, awaited⟩
    refine ⟨hinged, named, fun ha => ?_⟩
    obtain ⟨input, hinge, paths⟩ := awaited ha
    exact ⟨fun hi => input (active.1 hi), hinge, paths .near, paths .far⟩
  · rintro ⟨hinged, named, awaited⟩
    refine ⟨hinged, named, fun ha => ?_⟩
    obtain ⟨input, hinge, near, far⟩ := awaited ha
    exact ⟨fun hi => input (active.2 hi), hinge, fun c => match c with | .near => near | .far => far⟩

/-! ### The ways in which it changes -/

namespace Guarded.Allowed
variable {g : Guarded}

/-- With no transfer in progress the hinge monitor alone counts. -/
theorem of_inactive (hinged : g.Hinged) (h : g.transfer.active = false) : g.Allowed where
  hinged := hinged
  named ha := by rw [h] at ha; cases ha
  awaited ha := by rw [h] at ha; cases ha

/-- More events wait (R105, R171, R179). -/
theorem moreEvents (ok : g.Allowed) (l : List TransferEvent) :
    Allowed { g with events := g.events ++ l } where
  hinged := ok.hinged
  named := ok.named
  awaited ha := by
    obtain ⟨input, hinge, paths⟩ := ok.awaited ha
    exact ⟨input, fun h => List.mem_append_left _ (hinge h), fun c h => List.mem_append_left _ (paths c h)⟩

/-- The input stage moves, and its signals wait (R137). -/
theorem movesInput (ok : g.Allowed) (new : InputState) (l : List InputSignal)
    (hl : new = .active → .granted ∈ l) : Allowed { g with input := new, signals := g.signals ++ l } where
  hinged := ok.hinged
  named := ok.named
  awaited ha := by
    obtain ⟨-, hinge, paths⟩ := ok.awaited ha
    exact ⟨fun h => List.mem_append_right _ (hl h), hinge, paths⟩

/-- A path's restriction changes, and from NONE the event waits (R114, R124). -/
theorem restricts (ok : g.Allowed) (c : Cell) (new : Restriction) :
    Allowed { g with
      restriction := g.restriction.set c new
      events := if g.restriction.get c = .none then g.events ++ [.restriction c] else g.events } where
  hinged := ok.hinged
  named := ok.named
  awaited ha := by
    obtain ⟨input, hinge, paths⟩ := ok.awaited ha
    have kept : ∀ e ∈ g.events,
        e ∈ if g.restriction.get c = .none then g.events ++ [.restriction c] else g.events := by
      intro e he
      split
      · exact List.mem_append_left _ he
      · exact he
    refine ⟨input, fun h => kept _ (hinge h), fun d hd => ?_⟩
    by_cases hc : d = c
    · subst hc
      by_cases hn : g.restriction.get d = .none
      · simp [hn]
      · exact kept _ (paths d hn)
    · rw [PerCell.get_set, if_neg hc] at hd
      exact kept _ (paths d hd)

/-- The hinge monitor changes, and where it becomes unsettled the event waits (R151). -/
theorem movesHinge (ok : g.Allowed) {h : Hinge} (hinged : HingeOk (decide (g.phase = .running)) h)
    (l : List TransferEvent)
    (hl : g.hinge.settled = true → h.settled = false → .hingeUnsettled ∈ l) :
    Allowed { g with hinge := h, events := g.events ++ l } where
  hinged := hinged
  named := ok.named
  awaited ha := by
    obtain ⟨input, hinge, paths⟩ := ok.awaited ha
    refine ⟨input, fun hu => ?_, fun c hc => List.mem_append_left _ (paths c hc)⟩
    by_cases hs : g.hinge.settled = true
    · exact List.mem_append_right _ (hl hs hu)
    · exact List.mem_append_left _ (hinge (Bool.eq_false_iff.2 hs))

/-- The hinge monitor changes and stays as settled as it was, or becomes settled. -/
theorem settlesHinge (ok : g.Allowed) {h : Hinge} (hinged : HingeOk (decide (g.phase = .running)) h)
    (hs : g.hinge.settled = true → h.settled = true) : Allowed { g with hinge := h } := by
  have moved := ok.movesHinge hinged [] fun h1 h2 => by rw [hs h1] at h2; cases h2
  rwa [List.append_nil] at moved

/-- The power-on load goes on to its next phase, the hinge monitor with it (R155, R196). -/
theorem entersPhase (ok : g.Allowed) {p : Phase} {h : Hinge} (hinged : HingeOk (decide (p = .running)) h)
    (hs : h.settled = g.hinge.settled) : Allowed { g with phase := p, hinge := h } where
  hinged := hinged
  named := ok.named
  awaited ha := by
    obtain ⟨input, hinge, paths⟩ := ok.awaited ha
    exact ⟨input, fun h => hinge (hs ▸ h), paths⟩

/-- The transfer goes on, with the same cells (R102, R103, R107). -/
theorem goesOn (ok : g.Allowed) {t : TransferRecord} (ha : t.active = g.transfer.active)
    (hd : t.donor = g.transfer.donor) (hr : t.receiver = g.transfer.receiver) :
    Allowed { g with transfer := t } where
  hinged := ok.hinged
  named h := by
    obtain ⟨c, hc, ho⟩ := ok.named (ha ▸ h)
    exact ⟨c, hr.trans hc, hd.trans ho⟩
  awaited h := by
    obtain ⟨input, hinge, paths⟩ := ok.awaited (ha ▸ h)
    exact ⟨input, hinge, paths⟩

/-- A transfer starts where nothing bars it (R101, R102). -/
theorem starts (ok : g.Allowed) {t : TransferRecord} {c : Cell} (hr : t.receiver = some c)
    (hd : t.donor = some c.other) (hi : g.input ≠ .active) (hs : g.hinge.settled = true)
    (hp : ∀ d, g.restriction.get d = .none) : Allowed { g with transfer := t } where
  hinged := ok.hinged
  named _ := ⟨c, hr, hd⟩
  awaited _ := ⟨fun h => absurd h hi, fun h => (Bool.eq_false_iff.1 h hs).elim, fun d h => absurd (hp d) h⟩

/-- An event that bars no transfer is taken (R105). -/
theorem takesEvent (ok : g.Allowed) {e : TransferEvent} (hh : .hingeUnsettled ≠ e)
    (hp : ∀ c, .restriction c ≠ e) : Allowed { g with events := g.events.erase e } where
  hinged := ok.hinged
  named := ok.named
  awaited ha := by
    obtain ⟨input, hinge, paths⟩ := ok.awaited ha
    exact ⟨input, fun h => (List.mem_erase_of_ne hh).2 (hinge h),
      fun c h => (List.mem_erase_of_ne (hp c)).2 (paths c h)⟩

/-- A withdrawal of the input is taken from what waits (R93). -/
theorem takesWithdrawal (ok : g.Allowed) {rest : List InputSignal} (h : g.signals = .withdrawn :: rest) :
    Allowed { g with signals := rest } where
  hinged := ok.hinged
  named := ok.named
  awaited ha := by
    obtain ⟨input, hinge, paths⟩ := ok.awaited ha
    refine ⟨fun hi => ?_, hinge, paths⟩
    have waits := input hi
    rw [h, List.mem_cons] at waits
    exact waits.resolve_left (by decide)

end Guarded.Allowed

/-! ### The operations that leave it alone, and those that change it -/

namespace State
variable (s : State)

@[simp] theorem setStore_guarded (v : Store) : (s.setStore v).guarded = s.guarded := rfl
@[simp] theorem startSequencers_guarded : s.startSequencers.guarded = s.guarded := rfl
@[simp] theorem setFresh_guarded (v : Nat) : (s.setFresh v).guarded = s.guarded := rfl

@[simp] theorem setPhase_guarded (v : Phase) : (s.setPhase v).guarded = { s.guarded with phase := v } := rfl

@[simp] theorem setAlloc_guarded (v : Allocator) :
    (s.setAlloc v).guarded = { s.guarded with transfer := v.transfer } := rfl

@[simp] theorem setHanded_guarded (h : Handed) :
    (s.setHanded h).guarded = { s.guarded with signals := h.allocSignal, events := h.transfer } := rfl

@[simp] theorem guarded_restriction_get (c : Cell) :
    s.guarded.restriction.get c = (s.path.get c).restriction := PerCell.get_map ..

@[simp] theorem setPath_guarded (c : Cell) (p : PathRecord) :
    (s.setPath c p).guarded
      = { s.guarded with restriction := s.guarded.restriction.set c p.restriction } := by
  simp [guarded, PerCell.map_set]

/-- A path's record changes with its restriction kept. -/
theorem setPath_unguarded (c : Cell) {p : PathRecord} (h : p.restriction = (s.path.get c).restriction) :
    (s.setPath c p).guarded = s.guarded := by
  rw [setPath_guarded, h, ← guarded_restriction_get, PerCell.set_get]

@[simp] theorem recompute_guarded (c : Cell) : (s.recompute c).guarded = s.guarded :=
  s.setPath_unguarded c (PathRecord.take_restriction ..)

@[simp] theorem orderPath_guarded (c : Cell) (o : Order) : (s.orderPath c o).guarded = s.guarded :=
  (recompute_guarded _ c).trans (s.setPath_unguarded c rfl)

@[simp] theorem hingeCapWritten_guarded : s.hingeCapWritten.guarded = s.guarded := by
  rw [hingeCapWritten_eq]
  split
  · rfl
  · exact s.recompute_guarded .far

@[simp] theorem receiverDiode_guarded (r : Option Cell) : (s.receiverDiode r).guarded = s.guarded := by
  cases r with
  | none => rfl
  | some c => exact s.orderPath_guarded c .diode

/-! ### Sequencers and faults -/

@[simp] theorem updateSeq_guarded (c : Cell) (new : SeqRecord) : (s.updateSeq c new).guarded = s.guarded := by
  rw [updateSeq_eq]
  rfl

@[simp] theorem takeEventSeq_guarded (c : Cell) (new : SeqRecord) :
    (s.takeEventSeq c new).guarded = s.guarded := updateSeq_guarded _ c new

@[simp] theorem handleSet_guarded (c : Cell) (m : MeasSet) : (s.handleSet c m).guarded = s.guarded := by
  rw [handleSet_frame]
  rfl

@[simp] theorem setCeiling_guarded (v : Int) (c : Cell) : (s.setCeiling v c).guarded = s.guarded :=
  s.updateSeq_guarded c _

@[simp] theorem setFaults_guarded (new : PerFault FaultRecord) : (s.setFaults new).guarded = s.guarded := rfl

@[simp] theorem notifyFaults_guarded (ks : List FaultKind) : (s.notifyFaults ks).guarded = s.guarded := by
  rw [notifyFaults_eq]
  rfl

/-- Protection's reaction to a set hands SYS-UV on, and nothing else that is guarded (R171). -/
theorem protectOn_allowed (m : MeasSet) (ok : s.guarded.Allowed) : (s.protectOn m).guarded.Allowed := by
  have records := (notifyFaults_guarded
    (s.setFaults (recordsAfterSet s.prot.record s.tables.protect s.alloc.frame.number m))
    (risingKinds s.prot.record s.tables.protect m)).trans (s.setFaults_guarded _)
  rw [← records] at ok
  unfold protectOn
  dsimp only
  split
  · exact ok.moreEvents [.sysUv]
  · exact ok

/-! ### Tables -/

@[simp] theorem force_guarded (r : RecordId) (offset n : Nat) (new : Words) :
    (s.force r offset n new).guarded = s.guarded := by
  cases r
  case limits =>
    show (s.forceLimits offset n new).guarded = s.guarded
    unfold forceLimits
    dsimp only
    split
    · exact hingeCapWritten_guarded _
    · rfl
  all_goals rfl

@[simp] theorem bring_guarded (r : RecordId) (offset : Nat) (words : List Word) :
    (s.bring r offset words).guarded = s.guarded := s.force_guarded ..

@[simp] theorem setCopies_guarded (r : RecordId) (v : Copies) : (s.setCopies r v).guarded = s.guarded := by
  rw [setCopies_frame]
  rfl

@[simp] theorem promote_guarded (r : RecordId) (k : Copies) (source : ProfileSource) :
    (s.promote r k source).guarded = s.guarded := by
  rw [promote_frame]
  rfl

@[simp] theorem takeDefaults_guarded (r : RecordId) : (s.takeDefaults r).guarded = s.guarded := by
  unfold takeDefaults
  split
  · exact s.setCopies_guarded r _
  · exact s.force_guarded ..

/-! ### The input stage -/

/-- A move of the input stage hands its signal on (R137). -/
theorem moveInput_allowed (new : InputState) (ok : s.guarded.Allowed) : (s.moveInput new).guarded.Allowed := by
  by_cases h : new = s.input.state
  · rwa [h, moveInput_same]
  · rw [moveInput_eq s new h]
    by_cases hn : new = .active
    · simp only [hn, if_true]
      exact ok.movesInput .active [.granted] fun _ => List.mem_singleton_self _
    · by_cases hold : s.input.state = .active
      · simp only [hn, hold, if_true, if_false]
        exact ok.movesInput new [.withdrawn] fun h => absurd h hn
      · have moved := ok.movesInput new [] fun h => absurd h hn
        rw [List.append_nil] at moved
        simp only [hn, hold, if_false]
        exact moved

theorem setReasons_allowed (new : SuspendReasons) (ok : s.guarded.Allowed) :
    (s.setReasons new).guarded.Allowed := by
  rw [setReasons_eq]
  dsimp only
  split
  · exact moveInput_allowed _ _ ok
  · split
    · exact moveInput_allowed _ _ ok
    · exact ok

/-! ### Inhibit sets and targets -/

/-- An inhibit set that becomes non-empty hands its event on (R179). -/
theorem setInhibitSet_allowed (c : Cell) (new : Byte) (ok : s.guarded.Allowed) :
    (s.setInhibitSet c new).guarded.Allowed := by
  by_cases h : new = s.inhibit.get c
  · have same : s.setInhibitSet c new = s := h ▸ s.setInhibitSet_same c
    rwa [same]
  · rw [setInhibitSet_eq s c new h]
    by_cases h0 : s.inhibit.get c = 0
    · have more := ok.moreEvents [.inhibit c]
      simpa only [guarded, Handed.inhibitChange, h0, if_true] using more
    · simpa only [guarded, Handed.inhibitChange, h0, if_false] using ok

/-- What is kept by something done to a cell is kept by it done to each cell of a target. -/
theorem forEach_allowed (cells : List Cell) {f : Cell → State → State}
    (h : ∀ c u, u.guarded.Allowed → (f c u).guarded.Allowed) (ok : s.guarded.Allowed) :
    (s.forEach cells f).guarded.Allowed := by
  unfold forEach
  induction cells generalizing s with
  | nil => exact ok
  | cons c cells ih => exact ih (f c s) (h c s ok)

/-! ### The transfer -/

/-- An end of a transfer on an event leaves none in progress. -/
theorem endTransferOnEvent_guarded (cause : EndCause) :
    (s.endTransferOnEvent cause).guarded
      = { s.guarded with transfer := (s.endTransferOnEvent cause).alloc.transfer } := by
  unfold endTransferOnEvent
  split
  · dsimp only
    rw [receiverDiode_guarded, setAlloc_guarded, receiverDiode_frame]
    rfl
  · rfl

theorem endTransferOnEvent_allowed (cause : EndCause) (hinged : s.guarded.Hinged) :
    (s.endTransferOnEvent cause).guarded.Allowed := by
  rw [endTransferOnEvent_guarded]
  exact .of_inactive hinged (s.endTransferOnEvent_inactive cause)

end State

end Sys2Proof.Machine
end

section
/-! PROOFS. What the longer operations do to the guarded part: the frame, the revert, the loads and the requests (R102, R104, R110, R195, R196, R205). -/

namespace Sys2Proof.Machine

namespace State
variable (s : State)

/-! ### The frame (R82, R102, R104) -/

theorem coolDown_allowed (ok : s.guarded.Allowed) : s.coolDown.guarded.Allowed := ok.goesOn rfl rfl rfl

theorem endTransfer_allowed (cause : EndCause) (ok : s.guarded.Allowed) :
    (s.endTransfer cause).guarded.Allowed := .of_inactive ok.hinged rfl

theorem checkTransfer_allowed (m : MeasSet) (delta : Int) (ok : s.guarded.Allowed) :
    (s.checkTransfer m delta).guarded.Allowed := by
  unfold checkTransfer
  split
  · split
    · exact s.endTransfer_allowed _ ok
    · exact ok
  · exact ok

/-- A transfer starts only where nothing bars it (R101). -/
theorem startTransfer_allowed {m : MeasSet} {c : Cell} (hi : s.inputActive = false)
    (may : MayTransferTo s m c) (ok : s.guarded.Allowed) : (s.coolDown.startTransfer c).guarded.Allowed := by
  obtain ⟨-, settled, -, -, -, near, far, -⟩ := may
  have free : ∀ d, s.guarded.restriction.get d = .none := fun d =>
    match d with
    | .near => near
    | .far => far
  exact ok.starts rfl rfl (s.inputActive_eq_false_iff.1 hi) settled free

theorem transferStep_allowed (m : MeasSet) (ok : s.guarded.Allowed) :
    (s.transferStep m s.delta).guarded.Allowed := by
  have cooled := s.coolDown_allowed ok
  cases hi : s.inputActive with
  | true =>
    rw [s.transferStep_active m _ hi]
    exact cooled
  | false =>
    cases ha : s.alloc.transfer.active with
    | true =>
      rw [s.transferStep_inProgress m _ hi ha]
      exact checkTransfer_allowed _ m _ (cooled.goesOn rfl rfl rfl)
    | false =>
      rw [s.transferStep_none m hi ha]
      split
      · rename_i starts
        exact s.startTransfer_allowed hi starts.2 ok
      · exact cooled

theorem holdTransfer_allowed (ok : s.guarded.Allowed) : s.holdTransfer.guarded.Allowed := by
  unfold holdTransfer
  dsimp only
  split
  · exact endTransfer_allowed _ _ (s.coolDown_allowed ok)
  · exact s.coolDown_allowed ok

theorem takeFrame_allowed (m : MeasSet) (ok : s.guarded.Allowed) : (s.takeFrame m).guarded.Allowed := by
  unfold takeFrame
  dsimp only
  split
  · exact s.startFrame.transferStep_allowed m ok
  · exact s.startFrame.holdTransfer_allowed ok

/-! ### The revert (R110, R145, R187, R205) -/

theorem revertInput_allowed (ok : s.guarded.Allowed) : s.revertInput.guarded.Allowed := by
  unfold revertInput
  split
  · exact s.setReasons_allowed _ ok
  · exact s.revertSettings.setReasons_allowed _ ok

theorem revertTransfer_allowed (cause : EndCause) (ok : s.guarded.Allowed) :
    (s.revertTransfer cause).guarded.Allowed := by
  unfold revertTransfer
  dsimp only
  split
  · exact ok
  · exact endTransferOnEvent_allowed _ cause ok.hinged

/-- The allocator's part of a revert leaves no transfer in progress where it ends one, whatever waits. -/
theorem revertTransfer_ends_allowed (cause : EndCause) (h : s.revertEnds = true) (hinged : s.guarded.Hinged) :
    (s.revertTransfer cause).guarded.Allowed := by
  obtain ⟨-, hen⟩ := s.revertEnds_iff.1 h
  have disabled : Balance.xferEn s.tables.balance = false := by
    show (s.tables.balance.getD 2 0 != 0) = false
    rw [hen]
    rfl
  have ends : s.revertTransfer cause
      = (s.setAlloc { s.alloc with enable := Balance.xferEn s.tables.balance }).endTransferOnEvent cause :=
    if_neg (Bool.eq_false_iff.1 disabled)
  rw [ends]
  exact endTransferOnEvent_allowed _ cause hinged

theorem revertTransferAfterGrant_allowed (first : Bool) (h : s.revertEnds = true) (ok : s.guarded.Allowed) :
    (s.revertTransferAfterGrant first).guarded.Allowed := by
  unfold revertTransferAfterGrant
  split
  · exact revertTransfer_ends_allowed _ .input h ok.hinged
  · exact s.revertTransfer_allowed .host ok

theorem revertInputAndTransfer_allowed (ok : s.guarded.Allowed) :
    s.revertInputAndTransfer.guarded.Allowed := by
  unfold revertInputAndTransfer
  split
  · rename_i hboth
    simp only [Bool.and_eq_true, and_assoc] at hboth
    obtain ⟨hends, -, -⟩ := hboth
    have still : s.revertInput.revertEnds = true := by rw [revertInput_frame]; exact hends
    exact revertTransferAfterGrant_allowed _ _ still (s.revertInput_allowed ok)
  · exact revertInput_allowed _ (s.revertTransfer_allowed .host ok)

@[simp] theorem revertCeilings_guarded : s.revertCeilings.guarded = s.guarded := by
  unfold revertCeilings
  rw [setCeiling_guarded, setCeiling_guarded]

theorem revertInhibits_allowed (ok : s.guarded.Allowed) : s.revertInhibits.guarded.Allowed :=
  setInhibitSet_allowed _ .far 0 (s.setInhibitSet_allowed .near 0 ok)

theorem revert_allowed (ok : s.guarded.Allowed) : s.revert.guarded.Allowed := by
  have reverted := s.revertInputAndTransfer_allowed ok
  rw [← revertCeilings_guarded] at reverted
  unfold revert
  dsimp only
  rw [setFresh_guarded]
  exact revertInhibits_allowed _ reverted

@[simp] theorem discardPending_guarded : s.discardPending.guarded = s.guarded := rfl

@[simp] theorem reopenQueue_guarded : s.reopenQueue.guarded = s.guarded := rfl

end State

/-! ### The loads (R195, R196) -/

@[simp] theorem LoadProgress.take_guarded (p : LoadProgress) (r : RecordId) :
    (p.take r).state.guarded = p.state.guarded := by
  unfold LoadProgress.take
  dsimp only
  split
  · split
    · split
      · exact p.state.setCopies_guarded r _
      · exact p.state.takeDefaults_guarded r
    · exact p.state.bring_guarded r 0 _
  · exact p.state.takeDefaults_guarded r

theorem LoadProgress.foldl_guarded (rs : List RecordId) (p : LoadProgress) :
    (rs.foldl LoadProgress.take p).state.guarded = p.state.guarded := by
  induction rs generalizing p with
  | nil => rfl
  | cons r rs ih => rw [List.foldl_cons, ih, take_guarded]

@[simp] theorem LoadOutcome.take_guarded (o : LoadOutcome) (r : RecordId) :
    (o.take r).state.guarded = o.state.guarded := by
  unfold LoadOutcome.take
  dsimp only
  split
  · split
    · exact o.state.promote_guarded r _ .load
    · exact o.state.bring_guarded r 0 _
  · rfl

theorem LoadOutcome.foldl_guarded (rs : List RecordId) (o : LoadOutcome) :
    (rs.foldl LoadOutcome.take o).state.guarded = o.state.guarded := by
  induction rs generalizing o with
  | nil => rfl
  | cons r rs ih => rw [List.foldl_cons, ih, take_guarded]

/-! ### Requests -/

@[simp] theorem Answer.reply_guarded (a : Answer) (kind tag : Byte) :
    (a.reply kind tag).guarded = a.state.guarded := rfl

namespace State
variable (s : State)

/-- What leaves the guarded part as it is done to a cell leaves it as it is done to each cell of a target. -/
theorem forEach_guarded (cells : List Cell) {f : Cell → State → State}
    (h : ∀ c u, (f c u).guarded = u.guarded) : (s.forEach cells f).guarded = s.guarded := by
  unfold forEach
  induction cells generalizing s with
  | nil => rfl
  | cons c cells ih => exact (ih (f c s)).trans (h c s)

theorem ceiling_guarded (target : Byte) (value : Word) :
    (s.ceiling target value).state.guarded = s.guarded := by
  unfold ceiling
  split
  · exact s.forEach_guarded _ fun c u => u.setCeiling_guarded _ c
  · rfl

theorem gaugeSeed_guarded (target : Byte) : (s.gaugeSeed target).state.guarded = s.guarded := by
  unfold gaugeSeed
  split
  · exact s.forEach_guarded _ fun c u => rfl
  · rfl

theorem chargeRestart_guarded (target : Byte) : (s.chargeRestart target).state.guarded = s.guarded := by
  unfold chargeRestart
  split
  · split
    · rfl
    · exact s.forEach_guarded _ fun c u => u.takeEventSeq_guarded c _
  · rfl

theorem acceptInhibit_allowed (cells : List Cell) (f : Byte → Byte) (ok : s.guarded.Allowed) :
    (s.acceptInhibit cells f).state.guarded.Allowed :=
  s.forEach_allowed cells (fun c u => u.setInhibitSet_allowed c _) ok

theorem claim_allowed (cells : List Cell) (mask blocking : Byte) (ok : s.guarded.Allowed) :
    (s.claim cells mask blocking).state.guarded.Allowed := by
  unfold claim
  split
  · exact s.acceptInhibit_allowed cells _ ok
  · exact ok

theorem placing_allowed (target mask : Byte) {act : List Cell → Answer}
    (h : ∀ cells, (act cells).state.guarded.Allowed) (ok : s.guarded.Allowed) :
    (s.placing target mask act).state.guarded.Allowed := by
  unfold placing
  split
  · split
    · exact ok
    · exact h _
  · exact ok

theorem inhibitClear_allowed (target mask : Byte) (ok : s.guarded.Allowed) :
    (s.inhibitClear target mask).state.guarded.Allowed := by
  unfold inhibitClear
  split
  · exact s.acceptInhibit_allowed _ _ ok
  · exact ok

theorem faultClear_guarded (mask : Word) : (s.faultClear mask).state.guarded = s.guarded := by
  unfold faultClear
  split <;> rfl

theorem writeRecord_guarded (final : Bool) (id offset : Byte) (r : RecordId) (words : List Word) :
    (s.writeRecord final id offset r words).state.guarded = s.guarded := by
  unfold writeRecord
  split
  · rfl
  · split
    · split
      · exact s.promote_guarded r _ .write
      · exact s.setCopies_guarded r _
    · exact s.bring_guarded r _ words

theorem tableWrite_guarded (final : Bool) (id offset flags : Byte) (words : List Word) :
    (s.tableWrite final id offset flags words).state.guarded = s.guarded := by
  unfold tableWrite
  split
  · rfl
  · split
    · rfl
    · split
      · exact s.writeRecord_guarded final id offset _ words
      all_goals rfl

theorem storeRequest_guarded (mask : Word) : (s.storeRequest mask).state.guarded = s.guarded := by
  unfold storeRequest
  split
  · rfl
  · show (s.startStore (recordsIn mask)).guarded = s.guarded
    unfold startStore
    split <;> rfl

theorem loadRequest_guarded (mask : Word) : (s.loadRequest mask).state.guarded = s.guarded := by
  unfold loadRequest
  split
  · rfl
  · exact LoadOutcome.foldl_guarded (recordsIn mask) ⟨s, [], [], []⟩

theorem cancelStore_guarded : s.cancelStore.state.guarded = s.guarded := by
  unfold cancelStore
  split <;> rfl

theorem writeMask_guarded (enabled : Word) : (s.writeMask enabled).state.guarded = s.guarded := by
  unfold writeMask
  split <;> rfl

theorem softReset_allowed (ok : s.guarded.Allowed) : s.softReset.state.guarded.Allowed := by
  show s.reopenQueue.revert.discardPending.guarded.Allowed
  rw [discardPending_guarded]
  rw [← reopenQueue_guarded] at ok
  exact s.reopenQueue.revert_allowed ok

end State

end Sys2Proof.Machine
end

section
/-! PROOFS. Every command, and every step, keeps a transfer in progress only where it is allowed (R99, R102, R104, R105). -/

namespace Sys2Proof.Machine

/-- Whatever state a command gives, its guarded part is allowed where that of the state before was. -/
def Guarding (s : State) (o : Result) : Prop := s.guarded.Allowed → ∀ t, o = .next t → t.guarded.Allowed

namespace Guarding
variable {s t : State}

theorem next (h : s.guarded.Allowed → t.guarded.Allowed) : Guarding s (.next t) := by
  intro ok u hu
  injection hu with hu
  exact hu ▸ h ok

theorem quiet (h : t.guarded = s.guarded) : Guarding s (.next t) := next fun ok => h ▸ ok

theorem stay : Guarding s (.next s) := quiet rfl

/-- A request keeps what carrying it out keeps (R199). -/
theorem request {k : RequestKind} {tag : Byte} {act : State → Answer}
    (h : s.guarded.Allowed → (act s).state.guarded.Allowed) : Guarding s (s.request k tag act) := by
  by_cases hrun : s.phase = .running
  · rw [s.request_running k tag act hrun]
    refine next fun ok => ?_
    rw [Answer.reply_guarded]
    exact h ok
  · rw [s.request_closed k tag act hrun]
    exact stay

/-- A request whose answer leaves the guarded part. -/
theorem request_quiet {k : RequestKind} {tag : Byte} {act : State → Answer}
    (h : (act s).state.guarded = s.guarded) : Guarding s (s.request k tag act) :=
  request fun ok => h ▸ ok

end Guarding

section
variable (s : State)

/-! ### Power-on and time (R155, R196) -/

theorem powerOn_allowed : s.powerOn.guarded.Allowed :=
  .of_inactive (Hinge.powerOn_ok s.hinge.foldA.raw s.hinge.foldB.raw) rfl

theorem tick_allowed (ok : s.guarded.Allowed) : s.tick.guarded.Allowed :=
  ok.settlesHinge (Hinge.tick_ok ok.hinged) id

theorem execPowerOnLoad_guarding : Guarding s (execPowerOnLoad s) := by
  have brought : s.powerOnLoad.state.guarded = s.guarded :=
    LoadProgress.foldl_guarded RecordId.all ⟨s, []⟩
  unfold execPowerOnLoad
  split
  · rename_i hreset
    refine .next fun ok => ?_
    have hinged : HingeOk (decide (s.phase = .running)) s.hinge := ok.hinged
    rw [hreset] at hinged
    dsimp only
    rw [State.setPhase_guarded, State.startSequencers_guarded, State.setStore_guarded, brought]
    exact ok.entersPhase hinged rfl
  · exact .stay

theorem execPowerOnLoadCompletion_guarding : Guarding s (execPowerOnLoadCompletion s) := by
  unfold execPowerOnLoadCompletion
  split
  · rename_i hloaded
    refine .next fun ok => ?_
    have hinged : HingeOk (decide (s.phase = .running)) s.hinge := ok.hinged
    rw [hloaded] at hinged
    exact ok.entersPhase (p := .running) (Hinge.opening_ok hinged _) rfl
  · exact .stay

/-! ### Measurement, counters and sequencers -/

theorem execRoundTimerExpiry_guarding : Guarding s (execRoundTimerExpiry s) := by
  unfold execRoundTimerExpiry
  split
  · exact .quiet rfl
  · exact .stay

theorem execRoundCompletion_guarding (v : PerChannel Conversion) : Guarding s (execRoundCompletion v s) := by
  unfold execRoundCompletion
  split
  · exact .quiet rfl
  · exact .stay

/-- A counter's set moves the charge of a transfer in progress alone (R103). -/
theorem execCounterSetSteps_guarding (c : Cell) : Guarding s (execCounterSetSteps c s) := by
  have count (t : TransferRecord) (whole : Int) : t.count c whole = { t with moved := (t.count c whole).moved } := by
    unfold TransferRecord.count
    split <;> rfl
  unfold execCounterSetSteps
  split
  · dsimp only
    rw [count]
    exact .next fun ok => ok.goesOn rfl rfl rfl
  · exact .stay

theorem execFullMark_guarding (c : Cell) : Guarding s (execFullMark c s) := by
  unfold execFullMark
  split
  · dsimp only
    split <;> exact .quiet rfl
  · exact .stay

theorem execSequencerSetHandling_guarding (c : Cell) : Guarding s (execSequencerSetHandling c s) := by
  unfold execSequencerSetHandling
  split
  · exact .quiet (State.handleSet_guarded _ c _)
  · exact .stay

theorem execSafetyTimerExpiry_guarding (c : Cell) : Guarding s (execSafetyTimerExpiry c s) := by
  have expires : Guarding s (.next (s.expireNow c)) := .quiet (s.updateSeq_guarded c _)
  unfold execSafetyTimerExpiry
  split
  · split
    · exact .quiet (State.handleSet_guarded _ c _)
    · exact expires
  · exact expires

theorem execSeqInputGranted_guarding (c : Cell) : Guarding s (execSeqInputGranted c s) := by
  unfold execSeqInputGranted
  split
  · exact .quiet (State.takeEventSeq_guarded _ c _)
  · exact .stay
  · exact .stay

theorem execSeqInputWithdrawn_guarding (c : Cell) : Guarding s (execSeqInputWithdrawn c s) := by
  unfold execSeqInputWithdrawn
  split
  · dsimp only
    split
    · exact .quiet rfl
    · exact .quiet (State.updateSeq_guarded _ c _)
  · exact .stay
  · exact .stay

theorem execSeqInhibitEvent_guarding (c : Cell) : Guarding s (execSeqInhibitEvent c s) := by
  unfold execSeqInhibitEvent
  split
  · exact .quiet (State.takeEventSeq_guarded _ c _)
  · exact .stay

theorem execSeqFaultReasonUpdate_guarding (c : Cell) : Guarding s (execSeqFaultReasonUpdate c s) := by
  unfold execSeqFaultReasonUpdate
  split
  · exact .quiet (State.takeEventSeq_guarded _ c _)
  · exact .stay

theorem execSeqPromotion_guarding (c : Cell) : Guarding s (execSeqPromotion c s) := by
  unfold execSeqPromotion
  split
  · exact .quiet (State.takeEventSeq_guarded _ c _)
  · exact .stay

/-! ### Protection -/

theorem execProtectionSetReaction_guarding : Guarding s (execProtectionSetReaction s) := by
  unfold execProtectionSetReaction
  split
  · exact .next fun ok => State.protectOn_allowed _ _ ok
  · exact .stay

theorem execOvercurrentTrip_guarding (c : Cell) (current : Int) :
    Guarding s (execOvercurrentTrip c current s) := by
  unfold execOvercurrentTrip
  dsimp only
  split
  · exact .quiet (s.setPath_unguarded c rfl)
  · exact .stay

theorem execTripRearm_guarding (c : Cell) (current : Int) : Guarding s (execTripRearm c current s) := by
  unfold execTripRearm
  split
  · exact .stay
  · exact .quiet (s.setPath_unguarded c rfl)

theorem execRetryTimerExpiry_guarding (c : Cell) : Guarding s (execRetryTimerExpiry c s) := by
  unfold execRetryTimerExpiry
  split
  · exact .quiet rfl
  · exact .stay

/-! ### The allocator (R82, R93, R105) -/

theorem execAllocationFrame_guarding : Guarding s (execAllocationFrame s) := by
  unfold execAllocationFrame
  split
  · exact .next fun ok => State.takeFrame_allowed _ _ ok
  · exact .stay

/-- An event that ends no transfer in progress bars none (R105). -/
theorem takeEvent_allowed {e : TransferEvent} {h : Handed} (taken : s.handed.takeEvent e = some h)
    (hends : eventEnds s.alloc.transfer e = false) (ok : s.guarded.Allowed) :
    (s.setHanded h).guarded.Allowed := by
  cases e with
  | inputGranted | hingeUnsettled | restriction | sysUv => cases hends
  | inhibit c =>
    unfold Handed.takeEvent at taken
    rw [if_neg (by simp)] at taken
    split at taken <;> cases taken
    exact ok.takesEvent (e := .inhibit c) (by simp) (by simp)

theorem execTransferEventEnd_guarding (e : TransferEvent) : Guarding s (execTransferEventEnd e s) := by
  unfold execTransferEventEnd
  split
  · rename_i h taken
    dsimp only
    split
    · exact .next fun ok => State.endTransferOnEvent_allowed _ _ ok.hinged
    · rename_i hends
      exact .next (takeEvent_allowed s taken (Bool.eq_false_iff.2 hends))
  · exact .stay

/-- A withdrawal is taken with a grant left waiting, or with no transfer in progress (R93, R105). -/
theorem execGrantsClearedOnWithdrawal_guarding : Guarding s (execGrantsClearedOnWithdrawal s) := by
  unfold execGrantsClearedOnWithdrawal
  split
  · rename_i rest hsignals
    refine .next fun ok => ?_
    cases ha : s.alloc.transfer.active with
    | true =>
      have waits : s.handed.allocSignal = .withdrawn :: rest := (if_pos ha).symm.trans hsignals
      exact ok.takesWithdrawal waits
    | false => exact .of_inactive ok.hinged ha
  · exact .stay
  · exact .stay

theorem execFarGrantHingeCap_guarding : Guarding s (execFarGrantHingeCap s) := by
  unfold execFarGrantHingeCap
  split
  · exact .quiet rfl
  · exact .stay

/-! ### The paths (R113 to R124) -/

theorem execPathOrderDelivery_guarding (c : Cell) : Guarding s (execPathOrderDelivery c s) := by
  unfold execPathOrderDelivery
  split
  · dsimp only
    split
    · exact .quiet rfl
    · exact .quiet (State.orderPath_guarded _ c _)
  · exact .stay

theorem execPathRestrictionChange_guarding (c : Cell) : Guarding s (execPathRestrictionChange c s) := by
  unfold execPathRestrictionChange
  split
  · rename_i b rest hwait
    dsimp only
    split
    · exact .quiet rfl
    · refine .next fun ok => ?_
      have restricts := ok.restricts c b.restriction
      rw [State.guarded_restriction_get] at restricts
      rw [State.setHanded_guarded, State.recompute_guarded, State.setPath_guarded]
      exact restricts
  · exact .stay

theorem execRampTimerExpiry_guarding (c : Cell) : Guarding s (execRampTimerExpiry c s) := by
  unfold execRampTimerExpiry
  split
  · exact .quiet (s.setPath_unguarded c rfl)
  · exact .stay

theorem execPathInputGranted_guarding (c : Cell) : Guarding s (execPathInputGranted c s) := by
  unfold execPathInputGranted
  split
  · exact .quiet (State.orderPath_guarded _ c _)
  · exact .stay
  · exact .stay

theorem execPathInputWithdrawn_guarding (c : Cell) : Guarding s (execPathInputWithdrawn c s) := by
  unfold execPathInputWithdrawn
  split
  · exact .quiet (State.orderPath_guarded _ c _)
  · exact .stay
  · exact .stay

theorem execPathHingeUnsettled_guarding : Guarding s (execPathHingeUnsettled s) := by
  unfold execPathHingeUnsettled
  split
  · exact .quiet (State.orderPath_guarded _ .far _)
  · exact .stay

/-! ### The input stage (R130 to R141) -/

theorem execInputSagDerateStep_guarding : Guarding s (execInputSagDerateStep s) := by
  unfold execInputSagDerateStep
  split
  · dsimp only
    split <;> exact .quiet rfl
  · exact .stay

theorem execDieSuspendReasonChange_guarding : Guarding s (execDieSuspendReasonChange s) := by
  unfold execDieSuspendReasonChange
  split
  · exact .next fun ok => State.setReasons_allowed _ _ ok
  · exact .stay

theorem execAttachFilterExpiry_guarding (k : Comparator) : Guarding s (execAttachFilterExpiry k s) := by
  have recorded : (s.setInput (s.input.recordEdge k)).guarded = s.guarded := by cases k <;> rfl
  unfold execAttachFilterExpiry
  split
  · exact .next fun ok => State.moveInput_allowed _ _ (recorded ▸ ok)
  · exact .stay

theorem execQualificationExpiry_guarding : Guarding s (execQualificationExpiry s) := by
  unfold execQualificationExpiry
  split
  · exact .next fun ok => s.moveInput_allowed _ ok
  · exact .stay

/-! ### The hinge monitor (R147 to R155) -/

theorem execFoldRawChange_guarding (f : FoldSense) (active : Bool) :
    Guarding s (execFoldRawChange f active s) := by
  unfold execFoldRawChange
  dsimp only
  split
  · exact .stay
  · split
    · rename_i hrun
      split
      · rename_i n hstart
        refine .next fun ok => ?_
        have hinged := Hinge.startupRaw_ok ok.hinged (Option.isSome_of_eq_some hstart) f active s.hingeFilterTime
        rw [← decide_eq_true hrun] at hinged
        exact ok.settlesHinge hinged fun h => (Hinge.setFilter_settled ..).trans h
      · rename_i hstart
        refine .next fun ok => ?_
        have before : HingeOk (decide (s.phase = .running)) s.hinge := ok.hinged
        rw [decide_eq_true hrun] at before
        have hinged := Hinge.rawTo_ok before hstart f s.hingeFilterTime active
        rw [← decide_eq_true hrun] at hinged
        exact ok.settlesHinge hinged fun h => (Hinge.setFilter_settled ..).trans h
    · rename_i hclosed
      refine .next fun ok => ?_
      have before : HingeOk (decide (s.phase = .running)) s.hinge := ok.hinged
      rw [decide_eq_false hclosed] at before
      have hinged := Hinge.rawOnly_ok before f active
      rw [← decide_eq_false hclosed] at hinged
      exact ok.settlesHinge hinged fun h => (Hinge.setFilter_settled ..).trans h

/-- A hinge that becomes unsettled hands its event on (R151). -/
theorem execHingeFilterExpiry_guarding (f : FoldSense) : Guarding s (execHingeFilterExpiry f s) := by
  unfold execHingeFilterExpiry
  split
  · rename_i hup
    dsimp only
    refine .next fun ok => ?_
    have runs : (s.hinge.filter f).timer ≠ none := by
      rw [timeUp_iff] at hup
      simp [hup]
    have hinged := Hinge.filterExpiry_ok ok.hinged runs s.settleTime
    split
    · exact ok.movesHinge hinged [.hingeUnsettled] fun _ _ => List.mem_singleton_self _
    · rename_i hstays
      refine ok.settlesHinge hinged fun hs => ?_
      have before : s.hinge.settled = true := hs
      have after : ((s.hinge.setFilter f (s.hinge.filter f).expire).onPosition s.settleTime).settled = true := by
        simpa [before] using hstays
      exact after
  · exact .stay

theorem execSettleTimerExpiry_guarding : Guarding s (execSettleTimerExpiry s) := by
  unfold execSettleTimerExpiry
  split
  · rename_i hup
    refine .next fun ok => ?_
    have runs : s.hinge.settle.isSome := Option.isSome_of_eq_some ((timeUp_iff _).1 hup)
    exact ok.settlesHinge (Hinge.settled_ok ok.hinged runs) fun _ => rfl
  · exact .stay

/-- The start-up sample runs with the hinge unsettled, so its end makes it no less settled (R155). -/
theorem execStartupSampleExpiry_guarding : Guarding s (execStartupSampleExpiry s) := by
  unfold execStartupSampleExpiry
  split
  · rename_i hup
    refine .next fun ok => ?_
    have runs : s.hinge.startup.isSome := Option.isSome_of_eq_some ((timeUp_iff _).1 hup)
    obtain ⟨-, -, -, sample, -, -, -⟩ := ok.hinged
    refine ok.settlesHinge (Hinge.startupExpiry_ok ok.hinged runs s.settleTime) fun hs => ?_
    rw [(sample runs).1] at hs
    cases hs
  · exact .stay

/-! ### The store and the link -/

theorem execRecordCompletion_guarding : Guarding s (execRecordCompletion s) := by
  unfold execRecordCompletion
  split
  · dsimp only
    split <;> exact .quiet rfl
  · exact .stay

theorem execSupervisorExpiry_guarding : Guarding s (execSupervisorExpiry s) := by
  unfold execSupervisorExpiry
  split
  · exact .next fun ok => State.revert_allowed _ ok
  · exact .stay

theorem execBadRequestFrame_guarding (bytes : List Byte) : Guarding s (execBadRequestFrame bytes s) := by
  unfold execBadRequestFrame
  split
  · exact .quiet rfl
  · exact .stay

theorem execUnknownRequest_guarding (kind tag : Byte) (body : List Byte) :
    Guarding s (execUnknownRequest kind tag body s) := by
  unfold execUnknownRequest
  split
  · exact .quiet rfl
  · exact .stay

theorem execLengthError_guarding (kind tag : Byte) (body : List Byte) :
    Guarding s (execLengthError kind tag body s) := by
  unfold execLengthError
  split
  · exact .quiet rfl
  · exact .stay

theorem execReadReply_guarding (count : Nat) : Guarding s (execReadReply count s) := by
  unfold execReadReply
  split
  · exact .quiet rfl
  · exact .stay

end

/-! ### Every command and every step -/

/-- Every command keeps the guarded part allowed. -/
theorem exec_guarding (s : State) (i : Instr) : Guarding s (exec i s) := by
  cases i with
  | powerOnReset => exact .next fun _ => powerOn_allowed s
  | powerOnLoad => exact execPowerOnLoad_guarding s
  | powerOnLoadCompletion => exact execPowerOnLoadCompletion_guarding s
  | roundTimerExpiry => exact execRoundTimerExpiry_guarding s
  | roundCompletion v => exact execRoundCompletion_guarding s v
  | counterSetSteps c => exact execCounterSetSteps_guarding s c
  | fullMark c => exact execFullMark_guarding s c
  | sequencerSetHandling c => exact execSequencerSetHandling_guarding s c
  | safetyTimerExpiry c => exact execSafetyTimerExpiry_guarding s c
  | seqInputGranted c => exact execSeqInputGranted_guarding s c
  | seqInputWithdrawn c => exact execSeqInputWithdrawn_guarding s c
  | seqInhibitEvent c => exact execSeqInhibitEvent_guarding s c
  | seqFaultReasonUpdate c => exact execSeqFaultReasonUpdate_guarding s c
  | seqPromotion c => exact execSeqPromotion_guarding s c
  | protectionSetReaction => exact execProtectionSetReaction_guarding s
  | inputSagDerateStep => exact execInputSagDerateStep_guarding s
  | allocationFrame => exact execAllocationFrame_guarding s
  | transferEventEnd e => exact execTransferEventEnd_guarding s e
  | pathOrderDelivery c => exact execPathOrderDelivery_guarding s c
  | pathRestrictionChange c => exact execPathRestrictionChange_guarding s c
  | rampTimerExpiry c => exact execRampTimerExpiry_guarding s c
  | pathInputGranted c => exact execPathInputGranted_guarding s c
  | pathInputWithdrawn c => exact execPathInputWithdrawn_guarding s c
  | pathHingeUnsettled => exact execPathHingeUnsettled_guarding s
  | grantsClearedOnWithdrawal => exact execGrantsClearedOnWithdrawal_guarding s
  | farGrantHingeCap => exact execFarGrantHingeCap_guarding s
  | overcurrentTrip c current => exact execOvercurrentTrip_guarding s c current
  | tripRearm c current => exact execTripRearm_guarding s c current
  | retryTimerExpiry c => exact execRetryTimerExpiry_guarding s c
  | dieSuspendReasonChange => exact execDieSuspendReasonChange_guarding s
  | comparatorRawChange vbus => exact .quiet rfl
  | attachFilterExpiry k => exact execAttachFilterExpiry_guarding s k
  | qualificationExpiry => exact execQualificationExpiry_guarding s
  | foldRawChange f active => exact execFoldRawChange_guarding s f active
  | hingeFilterExpiry f => exact execHingeFilterExpiry_guarding s f
  | settleTimerExpiry => exact execSettleTimerExpiry_guarding s
  | startupSampleExpiry => exact execStartupSampleExpiry_guarding s
  | recordCompletion => exact execRecordCompletion_guarding s
  | supervisorExpiry => exact execSupervisorExpiry_guarding s
  | emptyWrite => exact .stay
  | badRequestFrame bytes => exact execBadRequestFrame_guarding s bytes
  | unknownRequest kind tag body => exact execUnknownRequest_guarding s kind tag body
  | lengthError kind tag body => exact execLengthError_guarding s kind tag body
  | readReply count => exact execReadReply_guarding s count
  | identify | status | allocation =>
    exact Guarding.request_quiet (act := fun t => t.shows _) rfl
  | measure tag sect => exact .request_quiet (congrArg State.guarded (s.measure_state sect))
  | cell tag cell sect => exact .request_quiet (congrArg State.guarded (s.cellRecord_state cell sect))
  | faults tag sect => exact .request_quiet (congrArg State.guarded (s.faults_state sect))
  | inputLimit tag ilim vfloor => exact .request_quiet rfl
  | inputSuspendRead tag func => exact .request_quiet (congrArg State.guarded (s.readSuspend_state func))
  | inputSuspendSuspend tag => exact .request (s.setReasons_allowed _)
  | inputSuspendResume tag => exact .request (s.setReasons_allowed _)
  | ceiling tag target value => exact .request_quiet (s.ceiling_guarded target value)
  | inhibitSelect tag target mask =>
    exact .request fun ok => s.placing_allowed target mask (fun cells => s.claim_allowed cells mask _ ok) ok
  | inhibitSet tag target mask =>
    exact .request fun ok => s.placing_allowed target mask (fun cells => s.acceptInhibit_allowed cells _ ok) ok
  | inhibitClear tag target mask => exact .request (s.inhibitClear_allowed target mask)
  | inhibitTest tag func target mask =>
    exact .request_quiet (congrArg State.guarded (s.inhibitTest_state func target mask))
  | inhibitEmptySelect tag target mask =>
    exact .request fun ok => s.placing_allowed target mask (fun cells => s.claim_allowed cells mask _ ok) ok
  | faultClear tag mask => exact .request_quiet (s.faultClear_guarded mask)
  | chargeRestart tag target => exact .request_quiet (s.chargeRestart_guarded target)
  | gaugeSeed tag target => exact .request_quiet (s.gaugeSeed_guarded target)
  | balanceRead tag func => exact .request_quiet (congrArg State.guarded (s.readBalance_state func))
  | balanceEnable tag => exact .request_quiet rfl
  | balanceDisable tag => exact .request fun ok => State.endTransferOnEvent_allowed _ .host ok.hinged
  | balanceCancel tag => exact .request fun ok => s.endTransferOnEvent_allowed .host ok.hinged
  | tableRead tag id offset count =>
    exact .request_quiet (congrArg State.guarded (s.tableRead_state id offset count))
  | tableWrite tag id offset flags words =>
    exact .request_quiet (s.tableWrite_guarded false id offset flags words)
  | tableWriteFinal tag id offset flags words =>
    exact .request_quiet (s.tableWrite_guarded true id offset flags words)
  | store tag mask => exact .request_quiet (s.storeRequest_guarded mask)
  | load tag mask => exact .request_quiet (s.loadRequest_guarded mask)
  | storeCancel tag => exact .request_quiet s.cancelStore_guarded
  | noticeFetch tag => exact .request_quiet rfl
  | noticeMaskRead tag func enabled => exact .request_quiet (congrArg State.guarded (s.readMask_state func))
  | noticeMaskWrite tag enabled => exact .request_quiet (s.writeMask_guarded enabled)
  | softReset tag => exact .request s.softReset_allowed

/-- Settles O59: every command keeps the guarded part allowed, and so does passing time. -/
theorem transfersRunOnlyWhereAllowed : Obligations.TransfersRunOnlyWhereAllowed := by
  unfold Obligations.TransfersRunOnlyWhereAllowed
  intro s t hs ht
  rw [← State.guarded_allowed_iff] at hs ⊢
  cases hq : s.pending with
  | nil =>
    rw [step_empty s hq] at ht
    injection ht with ht
    exact ht ▸ tick_allowed s hs
  | cons i rest =>
    rw [step_cons s i rest hq] at ht
    exact exec_guarding { s with pending := rest } i hs t ht

end Sys2Proof.Machine
end

section
/-! PROOFS. What a recomputed path conducts, and the words brought into a table: every one in its
field's range (R44, R112, R115 to R117, R190). -/

namespace Sys2Proof.Machine

/-! ### Recomputed records (R115 to R117) -/

/-- A restriction makes CLOSED of an ordered CLOSED alone, and only where it blocks nothing (R116). -/
theorem restricted_eq_closed_iff (o : Order) (r : Restriction) :
    restricted o r = .closed ↔ o = .closed ∧ r = .none := by
  cases o <;> cases r <;> simp [restricted]

theorem restricted_ne_closed {o : Order} (h : o ≠ .closed) (r : Restriction) : restricted o r ≠ .closed :=
  fun hc => h ((restricted_eq_closed_iff o r).1 hc).1

theorem restricted_ne_ramp (o : Order) (r : Restriction) : restricted o r ≠ .ramp := by
  cases o <;> cases r <;> simp [restricted]

/-- No order conducts in a direction that the restriction blocks (R112, R116). -/
theorem restricted_conduct (o : Order) (r : Restriction) :
    (r = .blockAll → (restricted o r).discharge = .blocked ∧ (restricted o r).charge = .blocked)
      ∧ (r = .blockDischarge → (restricted o r).discharge = .blocked)
      ∧ (r = .blockCharge → (restricted o r).charge = .blocked) := by
  cases r <;> cases o <;> simp [restricted, Effective.discharge, Effective.charge]

/-- A restriction raises no target (R112, R116). -/
theorem restricted_target_le {o : Order} {cap : Int} (hcap : 0 ≤ cap) (ho : ∀ x ∈ o.value, x ≤ cap)
    (r : Restriction) : (restricted o r).target ≤ cap := by
  cases o <;> cases r <;> simp_all [restricted, Effective.target, Order.value]

theorem hingeCapped_le (cap x : Int) : hingeCapped cap x ≤ cap := by
  obtain ⟨-, below, -⟩ := downTo_bounds (min x cap)
  exact Int.le_trans below (Int.min_le_right x cap)

/-- On the far path, with the hinge not settled, no CLOSED passes and every value is capped (R115). -/
theorem conditioned_unsettled (active : Bool) (cap : Int) (o : Order) :
    conditioned .far active false cap o ≠ .closed
      ∧ ∀ x ∈ (conditioned .far active false cap o).value, x ≤ cap := by
  cases o with
  | openPath | diode | closed => simp [conditioned, hingeLimits, Order.value]
  | limit x | regulate x =>
    have capped := hingeCapped_le cap x
    by_cases h0 : hingeCapped cap x = 0 <;> simp [conditioned, hingeLimits, Order.value, h0, capped]

/-- Under an ACTIVE input no CLOSED passes (R115). -/
theorem conditioned_active (c : Cell) (settled : Bool) (cap : Int) (o : Order) :
    conditioned c true settled cap o ≠ .closed := by
  cases o with
  | openPath | diode | closed => simp [conditioned]
  | limit x | regulate x =>
    unfold conditioned
    dsimp only
    split
    · split <;> exact Order.noConfusion
    · exact Order.noConfusion

namespace PathRecord
variable {p : PathRecord} {ramp : Nat}

theorem take_eff {e : Effective} (h : e ≠ .closed) : (p.take ramp e).eff = e := by simp [take, h]

/-- A recomputed path conducts in no direction that its restriction blocks, whatever its order (R116, R117,
R126). -/
theorem take_ok (hramp : p.ramp.isSome ↔ p.eff = .ramp) (harmed : p.eff = .openPath → p.armed) (o : Order) :
    PathOk (p.take ramp (restricted o p.restriction)) := by
  by_cases hclosed : restricted o p.restriction = .closed
  · obtain ⟨-, free⟩ := (restricted_eq_closed_iff o p.restriction).1 hclosed
    unfold take
    rw [if_pos hclosed]
    split
    · exact ⟨by simp [free], by simp [free], by simp [free], hramp, harmed⟩
    · exact ⟨by simp [free], by simp [free], by simp [free], by simp, by simp⟩
  · obtain ⟨all, discharge, charge⟩ := restricted_conduct o p.restriction
    unfold take
    rw [if_neg hclosed]
    refine ⟨all, discharge, charge, ?_, ?_⟩
    · simp [restricted_ne_ramp]
    · intro hopen
      simpa using .inr hopen

end PathRecord

/-! ### Words in their fields (R190) -/

/-- An adjusted word lies in its field's range (R190). -/
theorem Field.adjust_mem {f : Field} (h : f.lo ≤ f.hi) (x : Int) :
    f.lo ≤ f.adjust x ∧ f.adjust x ≤ f.hi := by
  unfold Field.adjust clamp
  split
  · omega
  · split <;> omega

/-- Every word that its field names lies in the field's range. -/
theorem inFields_iff (fields : List Field) (w : Words) :
    InFields fields w ↔ w.length = fields.length
      ∧ ∀ (i : Nat) (f : Field) (x : Int), fields[i]? = some f → w[i]? = some x → f.lo ≤ x ∧ x ≤ f.hi := by
  refine and_congr_right fun _ => ⟨fun h i f x hf hx => ?_, fun h p hp => ?_⟩
  · exact h (f, x) (List.mem_iff_getElem?.2 ⟨i, List.getElem?_zip_eq_some.2 ⟨hf, hx⟩⟩)
  · obtain ⟨i, hi⟩ := List.mem_iff_getElem?.1 hp
    obtain ⟨hf, hx⟩ := List.getElem?_zip_eq_some.1 hi
    exact h i p.1 p.2 hf hx

theorem adjustWords_length (fields : List Field) (offset : Nat) (words : List Word) :
    (adjustWords fields offset words).length = min (fields.length - offset) words.length := by
  simp [adjustWords]

theorem Words.splice_length {old : Words} {offset : Nat} {new : List Int}
    (h : offset + new.length ≤ old.length) : (old.splice offset new).length = old.length := by
  simp only [Words.splice, List.length_append, List.length_take, List.length_drop]
  omega

/-- The words of a splice: the new ones where they lie, the old ones elsewhere. -/
theorem Words.getElem?_splice {old : Words} {offset : Nat} {new : List Int}
    (h : offset + new.length ≤ old.length) (i : Nat) :
    (old.splice offset new)[i]? = if offset ≤ i ∧ i < offset + new.length then new[i - offset]? else old[i]? := by
  have hlen : (old.take offset).length = offset := by rw [List.length_take]; omega
  unfold Words.splice
  rw [List.append_assoc]
  by_cases hbefore : i < offset
  · rw [List.getElem?_append_left (hlen.symm ▸ hbefore), List.getElem?_take_of_lt hbefore, if_neg (by omega)]
  · rw [List.getElem?_append_right (by omega), hlen]
    by_cases hin : i < offset + new.length
    · rw [List.getElem?_append_left (by omega), if_pos (by omega)]
    · rw [List.getElem?_append_right (by omega), List.getElem?_drop, if_neg (by omega)]
      congr 1
      omega

/-- Words brought in from an offset within a table leave it in range (R44, R190). -/
theorem inFields_splice {fields : List Field} (hf : ∀ f ∈ fields, f.lo ≤ f.hi) {old : Words}
    (hold : InFields fields old) {offset : Nat} (ho : offset ≤ fields.length) (words : List Word) :
    InFields fields (old.splice offset (adjustWords fields offset words)) := by
  rw [inFields_iff] at hold ⊢
  obtain ⟨hlen, hin⟩ := hold
  have fits : offset + (adjustWords fields offset words).length ≤ old.length := by
    rw [adjustWords_length]
    omega
  refine ⟨(Words.splice_length fits).trans hlen, fun i f x hfi hx => ?_⟩
  rw [Words.getElem?_splice fits] at hx
  split at hx
  · rename_i hi
    obtain ⟨hi, -⟩ := hi
    simp only [adjustWords, List.getElem?_map, Option.map_eq_some_iff, List.getElem?_zip_eq_some,
      List.getElem?_drop, Prod.exists] at hx
    obtain ⟨g, word, ⟨hg, -⟩, rfl⟩ := hx
    rw [Nat.add_sub_cancel' hi, hfi] at hg
    obtain rfl := Option.some.inj hg
    exact Field.adjust_mem (hf f (List.mem_of_getElem? hfi)) _
  · exact hin i f x hfi hx

theorem limitsFields_nonempty : ∀ f ∈ limitsFields, f.lo ≤ f.hi := by decide

/-- HINGE_CAP in range is not negative (R190). -/
theorem hingeCap_nonneg {w : Words} (h : InFields limitsFields w) : 0 ≤ Limits.hingeCap w := by
  obtain ⟨hlen, hin⟩ := (inFields_iff limitsFields w).1 h
  have hlt : 7 < w.length := by rw [hlen]; decide
  obtain ⟨low, -⟩ := hin 7 ⟨1, 0, 3000⟩ w[7] rfl (List.getElem?_eq_getElem hlt)
  simpa [Limits.hingeCap, Words.at, List.getD_eq_getElem?_getD, hlt] using low

/-- Words brought into LIMITS that do not cover HINGE_CAP leave it (R115). -/
theorem hingeCap_splice {old : Words} (hold : InFields limitsFields old) {offset : Nat}
    (ho : offset ≤ limitsFields.length) {words : List Word}
    (h : covers offset words.length Limits.hingeCapOffset = false) :
    Limits.hingeCap (old.splice offset (adjustWords limitsFields offset words)) = Limits.hingeCap old := by
  obtain ⟨hlen, -⟩ := hold
  have count := adjustWords_length limitsFields offset words
  have outside : ¬ (offset ≤ 7 ∧ 7 < offset + (adjustWords limitsFields offset words).length) := by
    rintro ⟨h1, h2⟩
    refine Bool.eq_false_iff.1 h ?_
    rw [covers, Bool.and_eq_true, decide_eq_true_iff, decide_eq_true_iff]
    exact ⟨h1, show 7 < offset + words.length by omega⟩
  unfold Limits.hingeCap Words.at
  rw [List.getD_eq_getElem?_getD, List.getD_eq_getElem?_getD, Words.getElem?_splice (by omega), if_neg outside]

end Sys2Proof.Machine
end

section
/-! PROOFS. The part of the state that the paths hang on, the ways in which it may change, and what every one of
them keeps: the restricted paths, and the far path under the hinge (R111 to R126, R149). -/

namespace Sys2Proof.Machine

/-! ### The part that the paths hang on -/

/-- The path records, what they are recomputed from beside their orders, and the events that wait for them. -/
structure PathView where
  phase : Phase
  input : InputState
  hinge : Hinge
  limits : Words
  path : PerCell PathRecord
  signals : PerCell (List InputSignal)
  hingeEvents : Nat

/-- The part of a state that its paths hang on. -/
def State.pathView (s : State) : PathView where
  phase := s.phase
  input := s.input.state
  hinge := s.hinge
  limits := s.tables.limits
  path := s.path
  signals := s.handed.pathSignal
  hingeEvents := s.handed.pathHinge

namespace PathView

/-- An order as the input and the hinge condition it (R115). -/
def conditioned (g : PathView) (c : Cell) (o : Order) : Order :=
  Machine.conditioned c (g.input == .active) g.hinge.settled (Limits.hingeCap g.limits) o

/-- A path's record, recomputed as everything stands (R115 to R117). -/
def retake (g : PathView) (c : Cell) (p : PathRecord) : PathRecord :=
  p.take (tenths (Limits.rampMs g.limits)) (restricted (g.conditioned c p.ordered) p.restriction)

/-- One path's record is replaced. -/
def setPath (g : PathView) (c : Cell) (p : PathRecord) : PathView := { g with path := g.path.set c p }

/-- A path is recomputed with an order and a restriction. -/
def retaken (g : PathView) (c : Cell) (o : Order) (r : Restriction) : PathView :=
  g.setPath c (g.retake c { g.path.get c with ordered := o, restriction := r })

/-- A path takes an order. -/
def ordered (g : PathView) (c : Cell) (o : Order) : PathView := g.retaken c o (g.path.get c).restriction

/-- Under an ACTIVE input no CLOSED passes (R115). -/
theorem conditioned_active {g : PathView} (h : (g.input == .active) = true) {c : Cell} {o : Order} :
    g.conditioned c o ≠ .closed := by
  unfold conditioned
  rw [h]
  exact Machine.conditioned_active _ _ _ _

/-- Where no CLOSED passes, the recomputed path joins its cell to the rail in one direction at most. -/
theorem retake_not_joined {g : PathView} {c : Cell} {p : PathRecord}
    (h : g.conditioned c p.ordered ≠ .closed) : ¬ Joined (g.retake c p) := by
  have hne := restricted_ne_closed h p.restriction
  unfold retake
  rw [Joined, PathRecord.take_eff hne]
  exact not_or_intro hne (restricted_ne_ramp _ _)

end PathView

/-- What a command does at a time to the part that the paths hang on. -/
inductive PathMove : PathView → PathView → Prop
  /-- A path is recomputed, its order and its restriction having changed or not (R113 to R117). -/
  | retakes (g : PathView) (c : Cell) (o : Order) (r : Restriction) : PathMove g (g.retaken c o r)
  /-- A path takes the oldest signal of the input stage that waits for it (R120, R121). -/
  | takesSignal (g : PathView) (c : Cell) (x : InputSignal) (rest : List InputSignal) (o : Order) :
      g.signals.get c = x :: rest →
      PathMove g { g.ordered c o with signals := g.signals.set c rest }
  /-- The far path takes a hinge event (R122). -/
  | takesHinge (g : PathView) (n : Nat) (o : Order) : g.hingeEvents = n + 1 →
      PathMove g { g.ordered .far o with hingeEvents := n }
  /-- A ramp ends (R118). -/
  | closes (g : PathView) (c : Cell) : (g.path.get c).eff = .ramp →
      PathMove g (g.setPath c { g.path.get c with eff := .closed, ramp := none })
  /-- A path trips, being not OPEN, or is armed again (R125, R126). -/
  | arms (g : PathView) (c : Cell) (armed : Bool) : (armed = false → (g.path.get c).eff ≠ .openPath) →
      PathMove g (g.setPath c { g.path.get c with armed := armed })
  /-- The input stage moves, and its signals wait at both paths (R137). -/
  | movesInput (g : PathView) (new : InputState) (l : List InputSignal) : (new = .active → .granted ∈ l) →
      PathMove g { g with input := new, signals := g.signals.map (· ++ l) }
  /-- The hinge monitor changes, with the part's phase, and becoming unsettled it hands its event on (R151,
  R155). -/
  | movesHinge (g : PathView) (p : Phase) (h : Hinge) (n : Nat) :
      (HingeOk (decide (g.phase = .running)) g.hinge → HingeOk (decide (p = .running)) h ∧
        (g.hinge.settled = true → h.settled = false → 0 < n)) →
      PathMove g { g with phase := p, hinge := h, hingeEvents := g.hingeEvents + n }
  /-- Words of LIMITS come into force; without a recomputation HINGE_CAP stays while the hinge is not settled
  (R115, R190). -/
  | bringsLimits (g : PathView) (w : Words) :
      (InFields limitsFields g.limits → InFields limitsFields w ∧
        (g.hinge.settled = false → Limits.hingeCap w = Limits.hingeCap g.limits)) →
      PathMove g { g with limits := w }
  /-- Words of LIMITS come into force and the far path is recomputed (R115). -/
  | capsFar (g : PathView) (w : Words) : (InFields limitsFields g.limits → InFields limitsFields w) →
      PathMove g (PathView.ordered { g with limits := w } .far g.path.far.ordered)
  /-- A tenth of a millisecond passes on the ramp timers (log 3). -/
  | countsRamps (g : PathView) :
      PathMove g { g with path := g.path.map fun p => { p with ramp := countDown p.ramp } }
  /-- A power-on reset (R128, R137, R144, R155). -/
  | resets (g : PathView) (rawA rawB : Bool) :
      PathMove g {
        phase := .reset, input := .detached, hinge := powerOnHinge rawA rawB, limits := defaultLimits
        path := PerCell.both powerOnPath, signals := ⟨[], []⟩, hingeEvents := 0 }

/-- Any number of moves. -/
inductive PathMoves : PathView → PathView → Prop
  | refl {g : PathView} : PathMoves g g
  | tail {g h k : PathView} : PathMoves g h → PathMove h k → PathMoves g k

theorem PathMove.moves {g h : PathView} (move : PathMove g h) : PathMoves g h := PathMoves.refl.tail move

theorem PathMoves.trans {g h k : PathView} (before : PathMoves g h) (after : PathMoves h k) :
    PathMoves g k := by
  induction after with
  | refl => exact before
  | tail _ move ih => exact ih.tail move

theorem PathMoves.of_eq {g h : PathView} (e : h = g) : PathMoves g h := e ▸ .refl

/-- The hinge monitor changes, with the part's phase, and stays settled where it was. -/
theorem PathMoves.staysSettled {g : PathView} (p : Phase) {h : Hinge}
    (hh : HingeOk (decide (g.phase = .running)) g.hinge →
      HingeOk (decide (p = .running)) h ∧ (g.hinge.settled = true → h.settled = true)) :
    PathMoves g { g with phase := p, hinge := h } := by
  refine (PathMove.movesHinge g p h 0 fun ok => ?_).moves
  obtain ⟨ok', stays⟩ := hh ok
  exact ⟨ok', fun before after => absurd (stays before) (Bool.eq_false_iff.1 after)⟩

/-- What each move keeps, any number of them keeps. -/
theorem PathMoves.keeps {P : PathView → Prop} (hP : ∀ {g h}, PathMove g h → P g → P h) {g h : PathView}
    (moves : PathMoves g h) (hg : P g) : P h := by
  induction moves with
  | refl => exact hg
  | tail _ move ih => exact hP move ih

/-! ### Restricted paths, and paths under the input (R115, R116, R120) -/

/-- Each path conducts as its restriction allows, and is in CLOSED or RAMP under an ACTIVE input only while a
grant waits for it. -/
def PathView.Restrained (g : PathView) : Prop :=
  ∀ c, PathOk (g.path.get c) ∧ OpenUnderInput (g.input == .active) (g.path.get c) (g.signals.get c)

theorem State.pathView_restrained_iff (s : State) :
    s.pathView.Restrained ↔ Both s.path PathOk
      ∧ OpenUnderInput s.inputActive s.path.near s.handed.pathSignal.near
      ∧ OpenUnderInput s.inputActive s.path.far s.handed.pathSignal.far := by
  constructor
  · intro h
    obtain ⟨okNear, openNear⟩ := h .near
    obtain ⟨okFar, openFar⟩ := h .far
    exact ⟨⟨okNear, okFar⟩, openNear, openFar⟩
  · rintro ⟨⟨okNear, okFar⟩, openNear, openFar⟩ (_ | _)
    · exact ⟨okNear, openNear⟩
    · exact ⟨okFar, openFar⟩

namespace PathView.Restrained
variable {g : PathView}

/-- One path's record and what waits for it change, and the other path stays. -/
theorem set (ok : g.Restrained) (c : Cell) {p : PathRecord} {l : List InputSignal} (hp : PathOk p)
    (hl : OpenUnderInput (g.input == .active) p l) :
    Restrained { g with path := g.path.set c p, signals := g.signals.set c l } := by
  intro d
  by_cases hd : d = c
  · subst hd
    simpa only [PerCell.get_set_same] using ⟨hp, hl⟩
  · simpa only [PerCell.get_set, if_neg hd] using ok d

/-- One path's record changes, and what waits for it stays. -/
theorem setPath (ok : g.Restrained) (c : Cell) {p : PathRecord} (hp : PathOk p)
    (hl : OpenUnderInput (g.input == .active) p (g.signals.get c)) : (g.setPath c p).Restrained := by
  have changed := ok.set c hp hl
  rwa [PerCell.set_get] at changed

/-- A path recomputed with any order and restriction conducts as it may, whatever waits for it. -/
theorem retake_ok (ok : g.Restrained) (c : Cell) (o : Order) (r : Restriction) (l : List InputSignal) :
    PathOk (g.retake c { g.path.get c with ordered := o, restriction := r })
      ∧ OpenUnderInput (g.input == .active)
          (g.retake c { g.path.get c with ordered := o, restriction := r }) l := by
  obtain ⟨⟨-, -, -, hramp, harmed⟩, -⟩ := ok c
  exact ⟨PathRecord.take_ok (p := { g.path.get c with ordered := o, restriction := r }) hramp harmed _,
    fun active joined => absurd joined (PathView.retake_not_joined (PathView.conditioned_active active))⟩

theorem retaken (ok : g.Restrained) (c : Cell) (o : Order) (r : Restriction) :
    (g.retaken c o r).Restrained := by
  obtain ⟨hp, hl⟩ := ok.retake_ok c o r (g.signals.get c)
  exact ok.setPath c hp hl

end PathView.Restrained

/-- Every move keeps the paths restrained. -/
theorem PathMove.keeps_restrained {g h : PathView} (move : PathMove g h) (ok : g.Restrained) :
    h.Restrained := by
  cases move with
  | retakes c o r => exact ok.retaken c o r
  | takesSignal c x rest o hwait =>
    obtain ⟨hp, hl⟩ := ok.retake_ok c o (g.path.get c).restriction rest
    exact ok.set c hp hl
  | takesHinge n o hwait => exact ok.retaken .far o g.path.far.restriction
  | closes c hramp =>
    obtain ⟨⟨all, discharge, charge, -, -⟩, hopen⟩ := ok c
    have conducts : (g.path.get c).restriction = .none := by
      rw [hramp] at all discharge charge
      cases hr : (g.path.get c).restriction <;> simp_all [Effective.discharge, Effective.charge]
    refine ok.setPath c ⟨?_, ?_, ?_, ?_, ?_⟩ fun active _ => hopen active (.inr hramp)
    all_goals simp [conducts]
  | arms c armed hshut =>
    obtain ⟨⟨all, discharge, charge, hramp, -⟩, hopen⟩ := ok c
    refine ok.setPath c ⟨all, discharge, charge, hramp, fun he => ?_⟩ hopen
    exact Bool.not_eq_false _ ▸ fun ha => hshut ha he
  | movesInput new l hl =>
    intro c
    obtain ⟨hp, -⟩ := ok c
    refine ⟨hp, fun active _ => ?_⟩
    rw [PerCell.get_map]
    exact List.mem_append_right _ (hl (beq_iff_eq.1 active))
  | movesHinge p h n hh => exact ok
  | bringsLimits w hw => exact ok
  | capsFar w hw =>
    have brought : PathView.Restrained { g with limits := w } := ok
    exact brought.retaken .far _ _
  | countsRamps =>
    intro c
    obtain ⟨⟨all, discharge, charge, hramp, harmed⟩, hopen⟩ := ok c
    dsimp only
    rw [PerCell.get_map]
    exact ⟨⟨all, discharge, charge, by rw [countDown_isSome]; exact hramp, harmed⟩, hopen⟩
  | resets rawA rawB =>
    have idle : PathOk powerOnPath ∧ OpenUnderInput false powerOnPath [] := by decide
    intro c
    cases c <;> exact idle

/-! ### The far path while the hinge is not settled (R115, R122, R149) -/

/-- The hinge monitor is consistent, LIMITS lies in range, and the far path is held to HINGE_CAP while the hinge
is not settled, but for a hinge event that waits for it. -/
structure PathView.Capped (g : PathView) : Prop where
  hinged : HingeOk (decide (g.phase = .running)) g.hinge
  limited : InFields limitsFields g.limits
  held : g.hinge.settled = false → g.hingeEvents = 0 →
    ¬ Joined g.path.far ∧ g.path.far.eff.target ≤ Limits.hingeCap g.limits

theorem State.pathView_capped_iff (s : State) :
    s.pathView.Capped ↔ HingeOk (decide (s.phase = .running)) s.hinge
      ∧ InFields limitsFields s.tables.limits ∧ FarHeld s :=
  ⟨fun ⟨hinged, limited, held⟩ => ⟨hinged, limited, held⟩,
    fun ⟨hinged, limited, held⟩ => ⟨hinged, limited, held⟩⟩


namespace PathView

/-- The far path recomputed with the hinge not settled is held to HINGE_CAP (R115). -/
theorem retake_held {g : PathView} (hs : g.hinge.settled = false) (hcap : 0 ≤ Limits.hingeCap g.limits)
    (p : PathRecord) :
    ¬ Joined (g.retake .far p) ∧ (g.retake .far p).eff.target ≤ Limits.hingeCap g.limits := by
  obtain ⟨hopen, capped⟩ : g.conditioned .far p.ordered ≠ .closed
      ∧ ∀ x ∈ (g.conditioned .far p.ordered).value, x ≤ Limits.hingeCap g.limits := by
    unfold conditioned
    rw [hs]
    exact conditioned_unsettled ..
  refine ⟨retake_not_joined hopen, ?_⟩
  rw [retake, PathRecord.take_eff (restricted_ne_closed hopen _)]
  exact restricted_target_le hcap capped _

namespace Capped
variable {g : PathView}

/-- A path's record is replaced, and the far path's by one that is held. -/
theorem setPath (ok : g.Capped) (c : Cell) {p : PathRecord}
    (hp : c = .far → g.hinge.settled = false → g.hingeEvents = 0 →
      ¬ Joined p ∧ p.eff.target ≤ Limits.hingeCap g.limits) : (g.setPath c p).Capped where
  hinged := ok.hinged
  limited := ok.limited
  held hs he := by
    cases c with
    | near => exact ok.held hs he
    | far => exact hp rfl hs he

/-- A recomputation holds the far path to HINGE_CAP, whatever waits for it (R115). -/
theorem retaken (ok : g.Capped) (c : Cell) (o : Order) (r : Restriction) : (g.retaken c o r).Capped :=
  ok.setPath c fun hc hs _ => hc ▸ retake_held hs (hingeCap_nonneg ok.limited) _

end Capped
end PathView

/-- Every move keeps the far path held to HINGE_CAP while the hinge is not settled. -/
theorem PathMove.keeps_capped {g h : PathView} (move : PathMove g h) (ok : g.Capped) : h.Capped := by
  have cap := hingeCap_nonneg ok.limited
  have ⟨hinged, limited, held⟩ := ok
  cases move with
  | retakes c o r => exact ok.retaken c o r
  | takesSignal c x rest o hwait =>
    obtain ⟨hinged, limited, held⟩ := ok.retaken c o (g.path.get c).restriction
    exact ⟨hinged, limited, held⟩
  | takesHinge n o hwait => exact ⟨hinged, limited, fun hs _ => PathView.retake_held hs cap _⟩
  | closes c hramp =>
    refine ok.setPath c fun hc hs he => ?_
    subst hc
    obtain ⟨apart, -⟩ := held hs he
    exact absurd (.inr hramp) apart
  | arms c armed hshut =>
    refine ok.setPath c fun hc hs he => ?_
    subst hc
    exact held hs he
  | movesInput new l hl => exact ⟨hinged, limited, held⟩
  | movesHinge p h n hh =>
    obtain ⟨hinged', hevent⟩ := hh hinged
    refine ⟨hinged', limited, fun hs he => ?_⟩
    obtain ⟨he, hn⟩ := Nat.add_eq_zero_iff.1 he
    refine held (Bool.eq_false_iff.2 fun settled => ?_) he
    exact Nat.ne_of_gt (hevent settled hs) hn
  | bringsLimits w hw =>
    obtain ⟨limited', stays⟩ := hw limited
    refine ⟨hinged, limited', fun hs he => ?_⟩
    dsimp only at hs
    dsimp only
    rw [stays hs]
    exact held hs he
  | capsFar w hw =>
    exact ⟨hinged, hw limited, fun hs _ => PathView.retake_held hs (hingeCap_nonneg (hw limited)) _⟩
  | countsRamps => exact ⟨hinged, limited, held⟩
  | resets rawA rawB =>
    have limits : InFields limitsFields defaultLimits := by decide
    have diode : ¬ Joined powerOnPath ∧ powerOnPath.eff.target ≤ Limits.hingeCap defaultLimits := by decide
    exact ⟨Hinge.powerOn_ok rawA rawB, limits, fun _ _ => diode⟩

end Sys2Proof.Machine
end

section
/-! PROOFS. What the operations do to the part that the paths hang on: the recomputations, the moves of the input
stage, the tables, the revert and the loads (R113 to R123, R136, R137, R190, R195, R196, R205). -/

namespace Sys2Proof.Machine

namespace State
variable (s : State)

/-! ### Recomputations (R113 to R117) -/

@[simp] theorem orderPath_pathView (c : Cell) (o : Order) :
    (s.orderPath c o).pathView = s.pathView.ordered c o := by
  rw [orderPath_eq]
  rfl

theorem orderPath_pathMoves (c : Cell) (o : Order) : PathMoves s.pathView (s.orderPath c o).pathView := by
  rw [orderPath_pathView]
  exact (PathMove.retakes ..).moves

theorem receiverDiode_pathMoves (r : Option Cell) : PathMoves s.pathView (s.receiverDiode r).pathView := by
  cases r with
  | none => exact .refl
  | some c => exact s.orderPath_pathMoves c .diode

/-- An end of a transfer orders the receiver's path DIODE (R106, R123). -/
theorem endTransferOnEvent_pathMoves (cause : EndCause) :
    PathMoves s.pathView (s.endTransferOnEvent cause).pathView := by
  unfold endTransferOnEvent
  split
  · let ended := s.endTransfer cause
    exact (ended.setAlloc { ended.alloc with
      frame := ended.alloc.frame.endTransfer s.alloc.transfer.receiver }).receiverDiode_pathMoves _
  · exact .refl

/-! ### The input stage (R136, R137) -/

/-- A move of the input stage hands its signal to both paths, and one to ACTIVE a grant (R137). -/
theorem moveInput_pathMoves (new : InputState) : PathMoves s.pathView (s.moveInput new).pathView := by
  by_cases h : new = s.input.state
  · rw [h, moveInput_same]
    exact .refl
  · rw [moveInput_eq s new h]
    by_cases hn : new = .active
    · simp only [hn, if_true]
      exact (PathMove.movesInput s.pathView .active [.granted] fun _ => List.mem_singleton_self _).moves
    · by_cases hold : s.input.state = .active
      · simp only [hn, hold, if_true, if_false]
        exact (PathMove.movesInput s.pathView new [.withdrawn] fun h => absurd h hn).moves
      · have move := PathMove.movesInput s.pathView new [] fun h => absurd h hn
        simp only [List.append_nil] at move
        simp only [hn, hold, if_false]
        exact move.moves

theorem setReasons_pathMoves (new : SuspendReasons) : PathMoves s.pathView (s.setReasons new).pathView := by
  have moves := (s.setInput { s.input with reasons := new }).moveInput_pathMoves
  rw [setReasons_eq]
  dsimp only
  split
  · exact moves .suspended
  · split
    · exact moves .active
    · exact .refl

/-! ### Operations that leave it -/

@[simp] theorem setFresh_pathView (v : Nat) : (s.setFresh v).pathView = s.pathView := rfl

@[simp] theorem reopenQueue_pathView : s.reopenQueue.pathView = s.pathView := rfl

@[simp] theorem discardPending_pathView : s.discardPending.pathView = s.pathView := rfl

@[simp] theorem takeEventSeq_pathView (c : Cell) (new : SeqRecord) :
    (s.takeEventSeq c new).pathView = s.pathView := by
  rw [takeEventSeq_took]
  rfl

@[simp] theorem updateSeq_pathView (c : Cell) (new : SeqRecord) :
    (s.updateSeq c new).pathView = s.pathView := by
  rw [updateSeq_eq]
  rfl

@[simp] theorem handleSet_pathView (c : Cell) (m : MeasSet) : (s.handleSet c m).pathView = s.pathView := by
  rw [handleSet_frame]
  rfl

@[simp] theorem setCeiling_pathView (v : Int) (c : Cell) : (s.setCeiling v c).pathView = s.pathView :=
  s.updateSeq_pathView c _

@[simp] theorem protectOn_pathView (m : MeasSet) : (s.protectOn m).pathView = s.pathView := by
  unfold protectOn
  dsimp only
  rw [notifyFaults_eq]
  split <;> rfl

@[simp] theorem takeFrame_pathView (m : MeasSet) : (s.takeFrame m).pathView = s.pathView := by
  rw [takeFrame_frame]
  rfl

@[simp] theorem setInhibitSet_pathView (c : Cell) (new : Byte) :
    (s.setInhibitSet c new).pathView = s.pathView := by
  rw [setInhibitSet_frame]
  rfl

@[simp] theorem setCopies_pathView (r : RecordId) (v : Copies) : (s.setCopies r v).pathView = s.pathView := by
  cases r <;> rfl

@[simp] theorem promote_pathView (r : RecordId) (k : Copies) (source : ProfileSource) :
    (s.promote r k source).pathView = s.pathView := by
  unfold promote
  dsimp only
  split <;> cases r <;> rfl

/-- What leaves the part as it is done to a cell leaves it as it is done to each cell of a target. -/
theorem forEach_pathView (cells : List Cell) {f : Cell → State → State}
    (h : ∀ c u, (f c u).pathView = u.pathView) : (s.forEach cells f).pathView = s.pathView := by
  unfold forEach
  induction cells generalizing s with
  | nil => rfl
  | cons c cells ih => exact (ih (f c s)).trans (h c s)

/-! ### Tables (R115, R190) -/

/-- Words of LIMITS that come into force recompute the far path where HINGE_CAP is among them and the hinge is
not settled (R115). -/
theorem forceLimits_pathMoves {offset n : Nat} {w : Words}
    (hin : InFields limitsFields s.tables.limits → InFields limitsFields w)
    (hcap : InFields limitsFields s.tables.limits → covers offset n Limits.hingeCapOffset = false →
      Limits.hingeCap w = Limits.hingeCap s.tables.limits) :
    PathMoves s.pathView (s.forceLimits offset n w).pathView := by
  unfold forceLimits
  dsimp only
  split
  · rw [hingeCapWritten_eq]
    split
    · rename_i hs
      refine (PathMove.bringsLimits s.pathView w fun h => ⟨hin h, fun hu => ?_⟩).moves
      exact absurd hs (Bool.eq_false_iff.1 hu)
    · exact (PathMove.capsFar s.pathView w hin).moves
  · rename_i hout
    exact (PathMove.bringsLimits s.pathView w fun h =>
      ⟨hin h, fun _ => hcap h (Bool.eq_false_iff.2 hout)⟩).moves

/-- A table other than LIMITS leaves the paths as its words come into force. -/
theorem force_pathView {r : RecordId} (h : r ≠ .limits) (offset n : Nat) (w : Words) :
    (s.force r offset n w).pathView = s.pathView := by
  cases r with
  | limits => exact absurd rfl h
  | profileN | profileF | bands | balance | protect | calibration | gauge => rfl

/-- Words brought into a table from an offset within it. -/
theorem bring_pathMoves (r : RecordId) {offset : Nat} (h : offset ≤ r.length) (words : List Word) :
    PathMoves s.pathView (s.bring r offset words).pathView := by
  by_cases hr : r = .limits
  · subst hr
    exact s.forceLimits_pathMoves (fun hin => inFields_splice limitsFields_nonempty hin h words)
      fun hin hout => hingeCap_splice hin h hout
  · exact .of_eq (s.force_pathView hr offset _ _)

theorem takeDefaults_pathMoves (r : RecordId) : PathMoves s.pathView (s.takeDefaults r).pathView := by
  unfold takeDefaults
  split
  · exact .of_eq (s.setCopies_pathView r _)
  · by_cases hr : r = .limits
    · subst hr
      have defaults : InFields limitsFields defaultLimits := by decide
      exact s.forceLimits_pathMoves (fun _ => defaults) fun _ hout => nomatch hout
    · exact .of_eq (s.force_pathView hr 0 _ _)

/-! ### The revert (R110, R145, R205) -/

theorem revertInput_pathMoves : PathMoves s.pathView s.revertInput.pathView := by
  unfold revertInput
  split
  · exact s.setReasons_pathMoves _
  · exact s.revertSettings.setReasons_pathMoves _

theorem revertTransfer_pathMoves (cause : EndCause) :
    PathMoves s.pathView (s.revertTransfer cause).pathView := by
  have ends := (s.setAlloc { s.alloc with enable := Balance.xferEn s.tables.balance }
    ).endTransferOnEvent_pathMoves cause
  unfold revertTransfer
  dsimp only
  split
  · exact .refl
  · exact ends

/-- An event taken from what waits for the transfer leaves what waits for the paths (R105). -/
theorem takeEvent_pathView {e : TransferEvent} {h : Handed} (taken : s.handed.takeEvent e = some h) :
    (s.setHanded h).pathView = s.pathView := by
  unfold Handed.takeEvent at taken
  split at taken
  · split at taken <;> cases taken
    rfl
  · split at taken <;> cases taken
    rfl

theorem revertTransferAfterGrant_pathMoves (first : Bool) :
    PathMoves s.pathView (s.revertTransferAfterGrant first).pathView := by
  unfold revertTransferAfterGrant
  split
  · rename_i h hfirst
    have taken : s.handed.takeEvent .inputGranted = some h := by
      cases first
      · cases hfirst
      · exact hfirst
    have ends := (s.setHanded h).revertTransfer_pathMoves .input
    rwa [s.takeEvent_pathView taken] at ends
  · exact s.revertTransfer_pathMoves .host

theorem revertInputAndTransfer_pathMoves : PathMoves s.pathView s.revertInputAndTransfer.pathView := by
  unfold revertInputAndTransfer
  split
  · exact s.revertInput_pathMoves.trans (revertTransferAfterGrant_pathMoves _ _)
  · exact (s.revertTransfer_pathMoves .host).trans (revertInput_pathMoves _)

/-- A revert moves the input stage and ends a transfer; the ceilings and the inhibit sets leave the paths. -/
theorem revert_pathMoves : PathMoves s.pathView s.revert.pathView := by
  have settings (u : State) : u.revertCeilings.revertInhibits.pathView = u.pathView := by
    rw [revertInhibits_frame, revertCeilings_frame]
    rfl
  unfold revert
  dsimp only
  rw [setFresh_pathView, settings]
  exact s.revertInputAndTransfer_pathMoves

end State

/-! ### The loads (R195, R196) -/

theorem LoadProgress.take_pathMoves (p : LoadProgress) (r : RecordId) :
    PathMoves p.state.pathView (p.take r).state.pathView := by
  unfold LoadProgress.take
  dsimp only
  split
  · split
    · split
      · exact .of_eq (p.state.setCopies_pathView r _)
      · exact p.state.takeDefaults_pathMoves r
    · exact p.state.bring_pathMoves r (Nat.zero_le _) _
  · exact p.state.takeDefaults_pathMoves r

theorem LoadProgress.foldl_pathMoves (rs : List RecordId) (p : LoadProgress) :
    PathMoves p.state.pathView (rs.foldl LoadProgress.take p).state.pathView := by
  induction rs generalizing p with
  | nil => exact .refl
  | cons r rs ih => exact (p.take_pathMoves r).trans (ih (p.take r))

theorem LoadOutcome.take_pathMoves (o : LoadOutcome) (r : RecordId) :
    PathMoves o.state.pathView (o.take r).state.pathView := by
  unfold LoadOutcome.take
  dsimp only
  split
  · split
    · exact .of_eq (o.state.promote_pathView r _ .load)
    · exact o.state.bring_pathMoves r (Nat.zero_le _) _
  · exact .refl

theorem LoadOutcome.foldl_pathMoves (rs : List RecordId) (o : LoadOutcome) :
    PathMoves o.state.pathView (rs.foldl LoadOutcome.take o).state.pathView := by
  induction rs generalizing o with
  | nil => exact .refl
  | cons r rs ih => exact (o.take_pathMoves r).trans (ih (o.take r))

end Sys2Proof.Machine
end

section
/-! PROOFS. Every command, and every step, changes the part that the paths hang on by its moves alone; what the
moves keep of the paths, every step keeps (R112 to R126, R149). -/

namespace Sys2Proof.Machine

/-- Whatever state a command gives, the part that the paths hang on has come to it by moves. -/
def PathMoving (s : State) (o : Result) : Prop := ∀ t, o = .next t → PathMoves s.pathView t.pathView

namespace PathMoving
variable {s t : State}

theorem next (h : PathMoves s.pathView t.pathView) : PathMoving s (.next t) := by
  intro u hu
  injection hu with hu
  exact hu ▸ h

theorem quiet (h : t.pathView = s.pathView) : PathMoving s (.next t) := next (.of_eq h)

theorem stay : PathMoving s (.next s) := quiet rfl

/-- A request moves the paths as carrying it out does (R199). -/
theorem request {k : RequestKind} {tag : Byte} {act : State → Answer}
    (h : PathMoves s.pathView (act s).state.pathView) : PathMoving s (s.request k tag act) := by
  by_cases hrun : s.phase = .running
  · rw [s.request_running k tag act hrun]
    exact next h
  · rw [s.request_closed k tag act hrun]
    exact stay

/-- A request whose answer leaves the paths. -/
theorem request_quiet {k : RequestKind} {tag : Byte} {act : State → Answer}
    (h : (act s).state.pathView = s.pathView) : PathMoving s (s.request k tag act) := request (.of_eq h)

end PathMoving

section
variable (s : State)

/-! ### Power-on and time (R128, R155, R196) -/

theorem powerOn_pathMoves : PathMoves s.pathView s.powerOn.pathView :=
  (PathMove.resets s.pathView s.hinge.foldA.raw s.hinge.foldB.raw).moves

/-- Passing time counts the hinge monitor's timers and the ramp timers down. -/
theorem tick_pathMoves : PathMoves s.pathView s.tick.pathView := by
  have hinge : PathMoves s.pathView { s.pathView with hinge := s.tick.hinge } :=
    .staysSettled s.phase fun ok => ⟨Hinge.tick_ok ok, id⟩
  exact hinge.tail (.countsRamps _)

theorem execPowerOnLoad_pathMoving : PathMoving s (execPowerOnLoad s) := by
  have brought : PathMoves s.pathView s.powerOnLoad.state.pathView := by
    unfold State.powerOnLoad
    exact LoadProgress.foldl_pathMoves RecordId.all ⟨s, []⟩
  have still : s.powerOnLoad.state.phase = s.phase := by
    unfold State.powerOnLoad
    rw [powerOnLoad_frame]
  unfold execPowerOnLoad
  split
  · rename_i hreset
    rw [hreset] at still
    generalize s.powerOnLoad = p at brought still
    have shut : decide (p.state.pathView.phase = .running) = false := by rw [State.pathView, still]; rfl
    refine .next (brought.trans (PathMoves.staysSettled .loaded fun ok => ⟨?_, id⟩))
    rw [shut] at ok
    exact ok
  · exact .stay

theorem execPowerOnLoadCompletion_pathMoving : PathMoving s (execPowerOnLoadCompletion s) := by
  unfold execPowerOnLoadCompletion
  split
  · rename_i hloaded
    have shut : decide (s.pathView.phase = .running) = false := by rw [State.pathView, hloaded]; rfl
    exact .next (.staysSettled .running fun ok => ⟨Hinge.opening_ok (shut ▸ ok) s.hingeFilterTime, id⟩)
  · exact .stay

/-! ### Measurement, counters and sequencers -/

theorem execRoundTimerExpiry_pathMoving : PathMoving s (execRoundTimerExpiry s) := by
  unfold execRoundTimerExpiry
  split
  · exact .quiet rfl
  · exact .stay

theorem execRoundCompletion_pathMoving (v : PerChannel Conversion) :
    PathMoving s (execRoundCompletion v s) := by
  unfold execRoundCompletion
  split
  · exact .quiet rfl
  · exact .stay

theorem execCounterSetSteps_pathMoving (c : Cell) : PathMoving s (execCounterSetSteps c s) := by
  unfold execCounterSetSteps
  split
  · exact .quiet rfl
  · exact .stay

theorem execFullMark_pathMoving (c : Cell) : PathMoving s (execFullMark c s) := by
  unfold execFullMark
  split
  · dsimp only
    split <;> exact .quiet rfl
  · exact .stay

theorem execSequencerSetHandling_pathMoving (c : Cell) :
    PathMoving s (execSequencerSetHandling c s) := by
  unfold execSequencerSetHandling
  split
  · exact .quiet (State.handleSet_pathView _ c _)
  · exact .stay

theorem execSafetyTimerExpiry_pathMoving (c : Cell) : PathMoving s (execSafetyTimerExpiry c s) := by
  have expires : PathMoving s (.next (s.expireNow c)) := .quiet (s.updateSeq_pathView c _)
  unfold execSafetyTimerExpiry
  split
  · split
    · exact .quiet (State.handleSet_pathView _ c _)
    · exact expires
  · exact expires

theorem execSeqInputGranted_pathMoving (c : Cell) : PathMoving s (execSeqInputGranted c s) := by
  unfold execSeqInputGranted
  split
  · exact .quiet (State.takeEventSeq_pathView _ c _)
  · exact .stay
  · exact .stay

theorem execSeqInputWithdrawn_pathMoving (c : Cell) : PathMoving s (execSeqInputWithdrawn c s) := by
  unfold execSeqInputWithdrawn
  split
  · dsimp only
    split
    · exact .quiet rfl
    · exact .quiet (State.updateSeq_pathView _ c _)
  · exact .stay
  · exact .stay

theorem execSeqInhibitEvent_pathMoving (c : Cell) : PathMoving s (execSeqInhibitEvent c s) := by
  unfold execSeqInhibitEvent
  split
  · exact .quiet (State.takeEventSeq_pathView _ c _)
  · exact .stay

theorem execSeqFaultReasonUpdate_pathMoving (c : Cell) : PathMoving s (execSeqFaultReasonUpdate c s) := by
  unfold execSeqFaultReasonUpdate
  split
  · exact .quiet (State.takeEventSeq_pathView _ c _)
  · exact .stay

theorem execSeqPromotion_pathMoving (c : Cell) : PathMoving s (execSeqPromotion c s) := by
  unfold execSeqPromotion
  split
  · exact .quiet (State.takeEventSeq_pathView _ c _)
  · exact .stay

/-! ### Protection (R125, R126, R161, R167) -/

theorem execProtectionSetReaction_pathMoving : PathMoving s (execProtectionSetReaction s) := by
  unfold execProtectionSetReaction
  split
  · exact .quiet (State.protectOn_pathView _ _)
  · exact .stay

/-- A trip disarms a path that is not OPEN (R125). -/
theorem execOvercurrentTrip_pathMoving (c : Cell) (current : Int) :
    PathMoving s (execOvercurrentTrip c current s) := by
  unfold execOvercurrentTrip
  dsimp only
  split
  · rename_i trips
    simp only [Bool.and_eq_true, bne_iff_ne, and_assoc] at trips
    obtain ⟨-, shut, -⟩ := trips
    exact .next (PathMove.arms s.pathView c false fun _ => shut).moves
  · exact .stay

theorem execTripRearm_pathMoving (c : Cell) (current : Int) : PathMoving s (execTripRearm c current s) := by
  unfold execTripRearm
  split
  · exact .stay
  · exact .next (PathMove.arms s.pathView c true nofun).moves

theorem execRetryTimerExpiry_pathMoving (c : Cell) : PathMoving s (execRetryTimerExpiry c s) := by
  unfold execRetryTimerExpiry
  split
  · exact .quiet rfl
  · exact .stay

/-! ### The allocator (R82, R93, R105) -/

theorem execAllocationFrame_pathMoving : PathMoving s (execAllocationFrame s) := by
  unfold execAllocationFrame
  split
  · exact .quiet (State.takeFrame_pathView _ _)
  · exact .stay

theorem execTransferEventEnd_pathMoving (e : TransferEvent) : PathMoving s (execTransferEventEnd e s) := by
  unfold execTransferEventEnd
  split
  · rename_i h taken
    have left := s.takeEvent_pathView taken
    dsimp only
    split
    · have ends := (s.setHanded h).endTransferOnEvent_pathMoves (eventCause e)
      rw [left] at ends
      exact .next ends
    · exact .quiet left
  · exact .stay

theorem execGrantsClearedOnWithdrawal_pathMoving : PathMoving s (execGrantsClearedOnWithdrawal s) := by
  unfold execGrantsClearedOnWithdrawal
  split
  · exact .quiet rfl
  · exact .stay
  · exact .stay

theorem execFarGrantHingeCap_pathMoving : PathMoving s (execFarGrantHingeCap s) := by
  unfold execFarGrantHingeCap
  split
  · exact .quiet rfl
  · exact .stay

/-! ### The paths (R113 to R124) -/

theorem execPathOrderDelivery_pathMoving (c : Cell) : PathMoving s (execPathOrderDelivery c s) := by
  unfold execPathOrderDelivery
  split
  · rename_i o rest _
    have orders := (s.setHanded { s.handed with pathOrder := s.handed.pathOrder.set c rest }
      ).orderPath_pathMoves c o
    dsimp only
    split
    · exact .quiet rfl
    · exact .next orders
  · exact .stay

/-- The record with the new restriction, recomputed under the order that it holds. -/
theorem setPath_recompute_pathView (c : Cell) (r : Restriction) :
    ((s.setPath c { s.path.get c with restriction := r }).recompute c).pathView
      = s.pathView.retaken c (s.path.get c).ordered r := by
  cases c <;> rfl

theorem execPathRestrictionChange_pathMoving (c : Cell) :
    PathMoving s (execPathRestrictionChange c s) := by
  unfold execPathRestrictionChange
  split
  · rename_i b rest _
    have restricts := setPath_recompute_pathView
      (s.setHanded { s.handed with pathBlocks := s.handed.pathBlocks.set c rest }) c b.restriction
    dsimp only
    split
    · exact .quiet rfl
    · exact .next (restricts ▸ (PathMove.retakes s.pathView c (s.path.get c).ordered b.restriction).moves)
  · exact .stay

theorem execRampTimerExpiry_pathMoving (c : Cell) : PathMoving s (execRampTimerExpiry c s) := by
  unfold execRampTimerExpiry
  split
  · rename_i expires
    obtain ⟨ramps, -⟩ := expires
    exact .next (PathMove.closes s.pathView c ramps).moves
  · exact .stay

/-- A path that takes its oldest signal takes an order with it (R120, R121). -/
theorem dropPathSignal_pathMoves {c : Cell} {x : InputSignal} {rest : List InputSignal}
    (h : s.handed.pathSignal.get c = x :: rest) (o : Order) :
    PathMoves s.pathView ((s.dropPathSignal c rest).orderPath c o).pathView := by
  rw [State.orderPath_pathView]
  exact (PathMove.takesSignal s.pathView c x rest o h).moves

theorem execPathInputGranted_pathMoving (c : Cell) : PathMoving s (execPathInputGranted c s) := by
  unfold execPathInputGranted
  split
  · rename_i rest hwait
    exact .next (dropPathSignal_pathMoves s hwait _)
  · exact .stay
  · exact .stay

theorem execPathInputWithdrawn_pathMoving (c : Cell) : PathMoving s (execPathInputWithdrawn c s) := by
  unfold execPathInputWithdrawn
  split
  · rename_i rest hwait
    exact .next (dropPathSignal_pathMoves s hwait _)
  · exact .stay
  · exact .stay

theorem execPathHingeUnsettled_pathMoving : PathMoving s (execPathHingeUnsettled s) := by
  unfold execPathHingeUnsettled
  split
  · rename_i n hwait
    refine .next ?_
    rw [State.orderPath_pathView]
    exact (PathMove.takesHinge s.pathView n _ hwait).moves
  · exact .stay

/-! ### The input stage (R130 to R141) -/

theorem execInputSagDerateStep_pathMoving : PathMoving s (execInputSagDerateStep s) := by
  unfold execInputSagDerateStep
  split
  · dsimp only
    split <;> exact .quiet rfl
  · exact .stay

theorem execDieSuspendReasonChange_pathMoving : PathMoving s (execDieSuspendReasonChange s) := by
  unfold execDieSuspendReasonChange
  split
  · rename_i d rest _
    exact .next ((s.setHanded { s.handed with die := rest }).setReasons_pathMoves _)
  · exact .stay

theorem execAttachFilterExpiry_pathMoving (k : Comparator) : PathMoving s (execAttachFilterExpiry k s) := by
  have recorded : (s.setInput (s.input.recordEdge k)).pathView = s.pathView := by cases k <;> rfl
  unfold execAttachFilterExpiry
  split
  · exact .next (recorded ▸ State.moveInput_pathMoves _ _)
  · exact .stay

theorem execQualificationExpiry_pathMoving : PathMoving s (execQualificationExpiry s) := by
  unfold execQualificationExpiry
  split
  · exact .next (s.moveInput_pathMoves _)
  · exact .stay

/-! ### The hinge monitor (R147 to R155) -/

theorem execFoldRawChange_pathMoving (f : FoldSense) (active : Bool) :
    PathMoving s (execFoldRawChange f active s) := by
  have settled (v : Filtered) : s.hinge.settled = true → (s.hinge.setFilter f v).settled = true :=
    (Hinge.setFilter_settled s.hinge f v).trans
  unfold execFoldRawChange
  dsimp only
  split
  · exact .stay
  · split
    · rename_i hrun
      have opened : decide (s.phase = .running) = true := decide_eq_true hrun
      split
      · rename_i n hstart
        refine .next (.staysSettled s.phase fun ok => ⟨?_, settled _⟩)
        rw [opened]
        exact Hinge.startupRaw_ok ok (Option.isSome_of_eq_some hstart) f active _
      · rename_i hstart
        refine .next (.staysSettled s.phase fun ok => ⟨?_, settled _⟩)
        rw [opened]
        exact Hinge.rawTo_ok (opened ▸ ok) hstart f _ active
    · rename_i hclosed
      have shut : decide (s.phase = .running) = false := decide_eq_false hclosed
      refine .next (.staysSettled s.phase fun ok => ⟨?_, settled _⟩)
      rw [shut]
      exact Hinge.rawOnly_ok (shut ▸ ok) f active

/-- A hinge that becomes unsettled hands its event to the far path (R151). -/
theorem execHingeFilterExpiry_pathMoving (f : FoldSense) : PathMoving s (execHingeFilterExpiry f s) := by
  unfold execHingeFilterExpiry
  split
  · rename_i hup
    have runs : (s.hinge.filter f).timer ≠ none := by rw [(timeUp_iff _).1 hup]; nofun
    dsimp only
    split
    · exact .next (PathMove.movesHinge s.pathView s.phase _ 1 fun ok =>
        ⟨Hinge.filterExpiry_ok ok runs s.settleTime, fun _ _ => Nat.one_pos⟩).moves
    · rename_i hstays
      have stays : s.hinge.settled = true →
          ((s.hinge.setFilter f (s.hinge.filter f).expire).onPosition s.settleTime).settled = true := by
        intro before
        simpa [before] using hstays
      exact .next (.staysSettled s.phase fun ok => ⟨Hinge.filterExpiry_ok ok runs s.settleTime, stays⟩)
  · exact .stay

theorem execSettleTimerExpiry_pathMoving : PathMoving s (execSettleTimerExpiry s) := by
  unfold execSettleTimerExpiry
  split
  · rename_i hup
    have runs : s.hinge.settle.isSome := Option.isSome_of_eq_some ((timeUp_iff _).1 hup)
    exact .next (.staysSettled s.phase fun ok => ⟨Hinge.settled_ok ok runs, fun _ => rfl⟩)
  · exact .stay

/-- The start-up sample runs with the hinge unsettled, so its end hands no event on (R155). -/
theorem execStartupSampleExpiry_pathMoving : PathMoving s (execStartupSampleExpiry s) := by
  unfold execStartupSampleExpiry
  split
  · rename_i hup
    have runs : s.hinge.startup.isSome := Option.isSome_of_eq_some ((timeUp_iff _).1 hup)
    refine .next (.staysSettled s.phase fun ok =>
      ⟨Hinge.startupExpiry_ok ok runs s.settleTime, fun hs => ?_⟩)
    obtain ⟨-, -, -, sample, -, -, -⟩ := ok
    obtain ⟨unsettled, -⟩ := sample runs
    exact absurd hs (Bool.eq_false_iff.1 unsettled)
  · exact .stay

/-! ### The store and the link -/

theorem execRecordCompletion_pathMoving : PathMoving s (execRecordCompletion s) := by
  unfold execRecordCompletion
  split
  · dsimp only
    split <;> exact .quiet rfl
  · exact .stay

theorem execSupervisorExpiry_pathMoving : PathMoving s (execSupervisorExpiry s) := by
  have reverts := ((s.setLink { s.link with supervisor := none }).notify .reverted).revert_pathMoves
  unfold execSupervisorExpiry
  split
  · exact .next reverts
  · exact .stay

theorem execBadRequestFrame_pathMoving (bytes : List Byte) : PathMoving s (execBadRequestFrame bytes s) := by
  unfold execBadRequestFrame
  split
  · exact .quiet rfl
  · exact .stay

theorem execUnknownRequest_pathMoving (kind tag : Byte) (body : List Byte) :
    PathMoving s (execUnknownRequest kind tag body s) := by
  unfold execUnknownRequest
  split
  · exact .quiet rfl
  · exact .stay

theorem execLengthError_pathMoving (kind tag : Byte) (body : List Byte) :
    PathMoving s (execLengthError kind tag body s) := by
  unfold execLengthError
  split
  · exact .quiet rfl
  · exact .stay

theorem execReadReply_pathMoving (count : Nat) : PathMoving s (execReadReply count s) := by
  unfold execReadReply
  split
  · exact .quiet rfl
  · exact .stay

end

/-! ### Requests -/

namespace State
variable (s : State)

theorem ceiling_pathView (target : Byte) (value : Word) :
    (s.ceiling target value).state.pathView = s.pathView := by
  unfold ceiling
  split
  · exact s.forEach_pathView _ fun c u => u.setCeiling_pathView _ c
  · rfl

theorem gaugeSeed_pathView (target : Byte) : (s.gaugeSeed target).state.pathView = s.pathView := by
  unfold gaugeSeed
  split
  · exact s.forEach_pathView _ fun c u => rfl
  · rfl

theorem chargeRestart_pathView (target : Byte) : (s.chargeRestart target).state.pathView = s.pathView := by
  unfold chargeRestart
  split
  · split
    · rfl
    · exact s.forEach_pathView _ fun c u => u.takeEventSeq_pathView c _
  · rfl

theorem acceptInhibit_pathView (cells : List Cell) (f : Byte → Byte) :
    (s.acceptInhibit cells f).state.pathView = s.pathView :=
  s.forEach_pathView cells fun c u => u.setInhibitSet_pathView c _

theorem claim_pathView (cells : List Cell) (mask blocking : Byte) :
    (s.claim cells mask blocking).state.pathView = s.pathView := by
  unfold claim
  split
  · exact s.acceptInhibit_pathView cells _
  · rfl

theorem placing_pathView (target mask : Byte) {act : List Cell → Answer}
    (h : ∀ cells, (act cells).state.pathView = s.pathView) :
    (s.placing target mask act).state.pathView = s.pathView := by
  unfold placing
  split
  · split
    · rfl
    · exact h _
  · rfl

theorem inhibitClear_pathView (target mask : Byte) :
    (s.inhibitClear target mask).state.pathView = s.pathView := by
  unfold inhibitClear
  split
  · exact s.acceptInhibit_pathView _ _
  · rfl

theorem faultClear_pathView (mask : Word) : (s.faultClear mask).state.pathView = s.pathView := by
  unfold faultClear
  split <;> rfl

/-- Words that go beyond their table are refused, so those brought in start within it (R211). -/
theorem writeRecord_pathMoves (final : Bool) (id offset : Byte) (r : RecordId) (words : List Word) :
    PathMoves s.pathView (s.writeRecord final id offset r words).state.pathView := by
  unfold writeRecord
  split
  · exact .refl
  · rename_i fits
    split
    · split
      · exact .of_eq (s.promote_pathView r _ .write)
      · exact .of_eq (s.setCopies_pathView r _)
    · exact s.bring_pathMoves r (by omega) words

theorem tableWrite_pathMoves (final : Bool) (id offset flags : Byte) (words : List Word) :
    PathMoves s.pathView (s.tableWrite final id offset flags words).state.pathView := by
  unfold tableWrite
  split
  · exact .refl
  · split
    · exact .refl
    · split
      · exact s.writeRecord_pathMoves final id offset _ words
      all_goals exact .refl

theorem storeRequest_pathView (mask : Word) : (s.storeRequest mask).state.pathView = s.pathView := by
  unfold storeRequest
  split
  · rfl
  · show (s.startStore (recordsIn mask)).pathView = s.pathView
    unfold startStore
    split <;> rfl

theorem loadRequest_pathMoves (mask : Word) : PathMoves s.pathView (s.loadRequest mask).state.pathView := by
  unfold loadRequest
  split
  · exact .refl
  · exact LoadOutcome.foldl_pathMoves (recordsIn mask) ⟨s, [], [], []⟩

theorem cancelStore_pathView : s.cancelStore.state.pathView = s.pathView := by
  unfold cancelStore
  split <;> rfl

theorem writeMask_pathView (enabled : Word) : (s.writeMask enabled).state.pathView = s.pathView := by
  unfold writeMask
  split <;> rfl

theorem softReset_pathMoves : PathMoves s.pathView s.softReset.state.pathView := by
  have reverts := s.reopenQueue.revert_pathMoves
  unfold softReset
  rwa [s.reopenQueue_pathView, ← s.reopenQueue.revert.discardPending_pathView] at reverts

end State

/-! ### Every command and every step -/

/-- Every command changes the part that the paths hang on by its moves alone. -/
theorem exec_pathMoving (s : State) (i : Instr) : PathMoving s (exec i s) := by
  cases i with
  | powerOnReset => exact .next (powerOn_pathMoves s)
  | powerOnLoad => exact execPowerOnLoad_pathMoving s
  | powerOnLoadCompletion => exact execPowerOnLoadCompletion_pathMoving s
  | roundTimerExpiry => exact execRoundTimerExpiry_pathMoving s
  | roundCompletion v => exact execRoundCompletion_pathMoving s v
  | counterSetSteps c => exact execCounterSetSteps_pathMoving s c
  | fullMark c => exact execFullMark_pathMoving s c
  | sequencerSetHandling c => exact execSequencerSetHandling_pathMoving s c
  | safetyTimerExpiry c => exact execSafetyTimerExpiry_pathMoving s c
  | seqInputGranted c => exact execSeqInputGranted_pathMoving s c
  | seqInputWithdrawn c => exact execSeqInputWithdrawn_pathMoving s c
  | seqInhibitEvent c => exact execSeqInhibitEvent_pathMoving s c
  | seqFaultReasonUpdate c => exact execSeqFaultReasonUpdate_pathMoving s c
  | seqPromotion c => exact execSeqPromotion_pathMoving s c
  | protectionSetReaction => exact execProtectionSetReaction_pathMoving s
  | inputSagDerateStep => exact execInputSagDerateStep_pathMoving s
  | allocationFrame => exact execAllocationFrame_pathMoving s
  | transferEventEnd e => exact execTransferEventEnd_pathMoving s e
  | pathOrderDelivery c => exact execPathOrderDelivery_pathMoving s c
  | pathRestrictionChange c => exact execPathRestrictionChange_pathMoving s c
  | rampTimerExpiry c => exact execRampTimerExpiry_pathMoving s c
  | pathInputGranted c => exact execPathInputGranted_pathMoving s c
  | pathInputWithdrawn c => exact execPathInputWithdrawn_pathMoving s c
  | pathHingeUnsettled => exact execPathHingeUnsettled_pathMoving s
  | grantsClearedOnWithdrawal => exact execGrantsClearedOnWithdrawal_pathMoving s
  | farGrantHingeCap => exact execFarGrantHingeCap_pathMoving s
  | overcurrentTrip c current => exact execOvercurrentTrip_pathMoving s c current
  | tripRearm c current => exact execTripRearm_pathMoving s c current
  | retryTimerExpiry c => exact execRetryTimerExpiry_pathMoving s c
  | dieSuspendReasonChange => exact execDieSuspendReasonChange_pathMoving s
  | comparatorRawChange vbus => exact .quiet rfl
  | attachFilterExpiry k => exact execAttachFilterExpiry_pathMoving s k
  | qualificationExpiry => exact execQualificationExpiry_pathMoving s
  | foldRawChange f active => exact execFoldRawChange_pathMoving s f active
  | hingeFilterExpiry f => exact execHingeFilterExpiry_pathMoving s f
  | settleTimerExpiry => exact execSettleTimerExpiry_pathMoving s
  | startupSampleExpiry => exact execStartupSampleExpiry_pathMoving s
  | recordCompletion => exact execRecordCompletion_pathMoving s
  | supervisorExpiry => exact execSupervisorExpiry_pathMoving s
  | emptyWrite => exact .stay
  | badRequestFrame bytes => exact execBadRequestFrame_pathMoving s bytes
  | unknownRequest kind tag body => exact execUnknownRequest_pathMoving s kind tag body
  | lengthError kind tag body => exact execLengthError_pathMoving s kind tag body
  | readReply count => exact execReadReply_pathMoving s count
  | identify | status | allocation => exact PathMoving.request_quiet (act := fun t => t.shows _) rfl
  | measure tag sect => exact .request_quiet (congrArg State.pathView (s.measure_state sect))
  | cell tag cell sect => exact .request_quiet (congrArg State.pathView (s.cellRecord_state cell sect))
  | faults tag sect => exact .request_quiet (congrArg State.pathView (s.faults_state sect))
  | inputLimit tag ilim vfloor => exact .request_quiet rfl
  | inputSuspendRead tag func => exact .request_quiet (congrArg State.pathView (s.readSuspend_state func))
  | inputSuspendSuspend | inputSuspendResume => exact .request (s.setReasons_pathMoves _)
  | ceiling tag target value => exact .request_quiet (s.ceiling_pathView target value)
  | inhibitSelect tag target mask =>
    exact .request_quiet (s.placing_pathView target mask fun cells => s.claim_pathView cells mask _)
  | inhibitSet tag target mask =>
    exact .request_quiet (s.placing_pathView target mask fun cells => s.acceptInhibit_pathView cells _)
  | inhibitClear tag target mask => exact .request_quiet (s.inhibitClear_pathView target mask)
  | inhibitTest tag func target mask =>
    exact .request_quiet (congrArg State.pathView (s.inhibitTest_state func target mask))
  | inhibitEmptySelect tag target mask =>
    exact .request_quiet (s.placing_pathView target mask fun cells => s.claim_pathView cells mask _)
  | faultClear tag mask => exact .request_quiet (s.faultClear_pathView mask)
  | chargeRestart tag target => exact .request_quiet (s.chargeRestart_pathView target)
  | gaugeSeed tag target => exact .request_quiet (s.gaugeSeed_pathView target)
  | balanceRead tag func => exact .request_quiet (congrArg State.pathView (s.readBalance_state func))
  | balanceEnable tag => exact .request_quiet rfl
  | balanceDisable tag => exact .request ((s.setEnable false).endTransferOnEvent_pathMoves .host)
  | balanceCancel tag => exact .request (s.endTransferOnEvent_pathMoves .host)
  | tableRead tag id offset count =>
    exact .request_quiet (congrArg State.pathView (s.tableRead_state id offset count))
  | tableWrite tag id offset flags words =>
    exact .request (s.tableWrite_pathMoves false id offset flags words)
  | tableWriteFinal tag id offset flags words =>
    exact .request (s.tableWrite_pathMoves true id offset flags words)
  | store tag mask => exact .request_quiet (s.storeRequest_pathView mask)
  | load tag mask => exact .request (s.loadRequest_pathMoves mask)
  | storeCancel tag => exact .request_quiet s.cancelStore_pathView
  | noticeFetch tag => exact .request_quiet rfl
  | noticeMaskRead tag func enabled => exact .request_quiet (congrArg State.pathView (s.readMask_state func))
  | noticeMaskWrite tag enabled => exact .request_quiet (s.writeMask_pathView enabled)
  | softReset tag => exact .request s.softReset_pathMoves

/-- Every step changes the part that the paths hang on by its moves alone. -/
theorem step_pathMoves {s t : State} (h : step s = .next t) : PathMoves s.pathView t.pathView := by
  cases hq : s.pending with
  | nil =>
    rw [step_empty s hq] at h
    injection h with h
    exact h ▸ tick_pathMoves s
  | cons i rest =>
    rw [step_cons s i rest hq] at h
    exact exec_pathMoving { s with pending := rest } i t h

/-- Settles O55: every move keeps the paths restrained, so every step does. -/
theorem restrictedPathsStayBlocked : Obligations.RestrictedPathsStayBlocked := by
  unfold Obligations.RestrictedPathsStayBlocked
  intro s t hs ht
  rw [← State.pathView_restrained_iff] at hs ⊢
  exact (step_pathMoves ht).keeps PathMove.keeps_restrained hs

/-- Settles O56: every move keeps the far path held to HINGE_CAP while the hinge is not settled, so every step
does. -/
theorem farPathStaysHeldWhileUnsettled : Obligations.FarPathStaysHeldWhileUnsettled := by
  unfold Obligations.FarPathStaysHeldWhileUnsettled
  intro s t hs ht
  rw [← State.pathView_capped_iff] at hs ⊢
  exact (step_pathMoves ht).keeps PathMove.keeps_capped hs

end Sys2Proof.Machine
end

section
/-! PROOFS. The commands on one path: orders, ramps, restriction changes and the immediate events (R113 to R124). -/

namespace Sys2Proof.Machine

/-! ### What the orders become (R113, R115, R120, R121) -/

theorem Order.onGrant_eq (o : Order) : o.onGrant = if o = .closed then .diode else o := by cases o <;> rfl

/-- The same order recomputes the far path where it can end a cap (R115, R152, log 43). -/
theorem State.sameOrderRecomputes_iff (s : State) (c : Cell) (o : Order) :
    s.sameOrderRecomputes c o = true
      ↔ c = .far ∧ s.hinge.settled = true ∧ ∃ x, o = .limit x ∨ o = .regulate x := by
  have valued : o.hasValue = true ↔ ∃ x, o = .limit x ∨ o = .regulate x := by
    cases o <;> simp [Order.hasValue]
  simp [sameOrderRecomputes, valued, and_assoc]

section
variable {s : State} {c : Cell}

/-! ### Orders and ramps (R113, R118) -/

theorem exec_pathOrderDelivery_same {o : Order} {rest : List Order}
    (h : s.handed.pathOrder.get c = o :: rest) (same : (s.path.get c).ordered = o)
    (hs : ¬ s.sameOrderRecomputes c o = true) :
    exec (.pathOrderDelivery c) s
      = .next (s.setHanded { s.handed with pathOrder := s.handed.pathOrder.set c rest }) := by
  simp only [exec, execPathOrderDelivery, h]
  exact if_pos ⟨same, Bool.eq_false_iff.2 hs⟩

theorem exec_pathOrderDelivery_new {o : Order} {rest : List Order}
    (h : s.handed.pathOrder.get c = o :: rest)
    (hnew : (s.path.get c).ordered ≠ o ∨ s.sameOrderRecomputes c o = true) :
    exec (.pathOrderDelivery c) s
      = .next ((s.setHanded { s.handed with pathOrder := s.handed.pathOrder.set c rest }).orderPath c o) := by
  simp only [exec, execPathOrderDelivery, h]
  refine if_neg fun ⟨same, hs⟩ => ?_
  exact hnew.elim (· same) (Bool.eq_false_iff.1 hs)

theorem exec_rampTimerExpiry_due (he : (s.path.get c).eff = .ramp) (hr : (s.path.get c).ramp = some 0) :
    exec (.rampTimerExpiry c) s
      = .next { s with path := s.path.set c { s.path.get c with eff := .closed, ramp := none } } :=
  if_pos ⟨he, (timeUp_iff _).2 hr⟩

theorem exec_rampTimerExpiry_early (h : (s.path.get c).ramp ≠ some 0) :
    exec (.rampTimerExpiry c) s = .next s :=
  if_neg fun ⟨_, hup⟩ => h ((timeUp_iff _).1 hup)

/-! ### Restrictions (R114, R124) -/

/-- The blocks in force, combined (R114). -/
theorem Blocks.restriction_eq (b : Blocks) :
    b.restriction = if b.all ∨ b.charge ∧ b.discharge then .blockAll
      else if b.charge then .blockCharge else if b.discharge then .blockDischarge else .none := by
  simp [restriction]

/-- A restriction change goes to the cell's sequencer, and from NONE to the transfer operation (R124). -/
theorem Handed.restrictionChange_eq (h : Handed) (c : Cell) (old new : Restriction) :
    h.restrictionChange c old new = { h with
      seqFault := h.seqFault.set c (h.seqFault.get c ++ [new])
      transfer := h.transfer ++ if old = .none then [.restriction c] else [] } := by
  unfold restrictionChange
  split <;> simp

theorem exec_pathRestrictionChange_same {b : Blocks} {rest : List Blocks}
    (h : s.handed.pathBlocks.get c = b :: rest) (same : b.restriction = (s.path.get c).restriction) :
    exec (.pathRestrictionChange c) s
      = .next (s.setHanded { s.handed with pathBlocks := s.handed.pathBlocks.set c rest }) := by
  simp only [exec, execPathRestrictionChange, h]
  exact if_pos same

/-- A restriction that changes recomputes the path and is handed on. -/
theorem exec_pathRestrictionChange_new {b : Blocks} {rest : List Blocks}
    (h : s.handed.pathBlocks.get c = b :: rest) (new : b.restriction ≠ (s.path.get c).restriction) :
    ∃ t, exec (.pathRestrictionChange c) s = .next t
      ∧ PathTook s c (s.path.get c).ordered b.restriction
          (Handed.restrictionChange { s.handed with pathBlocks := s.handed.pathBlocks.set c rest } c
            (s.path.get c).restriction b.restriction) t := by
  obtain ⟨p, hp, kept⟩ := State.recompute_took
    (s.setHanded { s.handed with pathBlocks := s.handed.pathBlocks.set c rest }) c b.restriction
  refine ⟨_, ?_, p, rfl, kept⟩
  simp only [exec, execPathRestrictionChange, h]
  rw [if_neg new, hp]
  rfl

/-! ### The immediate events (R120 to R122) -/

theorem exec_pathInputGranted {rest : List InputSignal} (h : s.handed.pathSignal.get c = .granted :: rest) :
    exec (.pathInputGranted c) s
      = .next ((s.dropPathSignal c rest).orderPath c (s.path.get c).ordered.onGrant) := by
  simp only [exec, execPathInputGranted, h]

theorem exec_pathInputWithdrawn {rest : List InputSignal}
    (h : s.handed.pathSignal.get c = .withdrawn :: rest) :
    exec (.pathInputWithdrawn c) s
      = .next ((s.dropPathSignal c rest).orderPath c (s.path.get c).ordered.onWithdrawal) := by
  simp only [exec, execPathInputWithdrawn, h]

theorem exec_pathHingeUnsettled {n : Nat} (h : s.handed.pathHinge = n + 1) :
    exec .pathHingeUnsettled s
      = .next ((s.setHanded { s.handed with pathHinge := n }).orderPath .far
          (s.path.far.ordered.onHinge (Limits.hingeCap s.tables.limits))) := by
  simp only [exec, execPathHingeUnsettled, h]

end

/-- Settles O28: each command takes its order or its restriction, and the path is recomputed where one of them
changes or a cap may end. -/
theorem pathTakesOrdersRampsAndRestrictions : Obligations.PathTakesOrdersRampsAndRestrictions := by
  unfold Obligations.PathTakesOrdersRampsAndRestrictions
  dsimp only
  refine ⟨⟨?_, fun s c => ⟨exec_rampTimerExpiry_due, exec_rampTimerExpiry_early⟩⟩, ?_⟩
  · intro s c o rest hwait
    simp only [← s.sameOrderRecomputes_iff]
    by_cases hnew : (s.path.get c).ordered ≠ o ∨ s.sameOrderRecomputes c o = true
    · refine ⟨_, exec_pathOrderDelivery_new hwait hnew, fun same hcap => ?_, fun _ => ?_⟩
      · exact absurd hnew (not_or_intro (not_not_intro same) hcap)
      · exact State.orderPath_took _ c o
    · obtain ⟨same, hcap⟩ := not_or.1 hnew
      exact ⟨_, exec_pathOrderDelivery_same hwait (Classical.not_not.1 same) hcap, fun _ _ => rfl,
        fun hor => absurd hor hnew⟩
  · intro s c b rest hwait
    simp only [← b.restriction_eq]
    by_cases same : b.restriction = (s.path.get c).restriction
    · exact ⟨_, exec_pathRestrictionChange_same hwait same, fun _ => rfl, fun hne => absurd same hne⟩
    · obtain ⟨t, taken, took⟩ := exec_pathRestrictionChange_new hwait same
      rw [Handed.restrictionChange_eq] at took
      exact ⟨t, taken, fun he => absurd he same, fun _ => took⟩

/-- Settles O29: each event is taken with the order that it leaves, and the path is recomputed under it. -/
theorem immediateEventsDemoteOrders : Obligations.ImmediateEventsDemoteOrders := by
  unfold Obligations.ImmediateEventsDemoteOrders
  dsimp only
  refine ⟨?_, ?_, ?_⟩
  · intro s c rest hwait
    rw [← Order.onGrant_eq]
    exact ⟨_, exec_pathInputGranted hwait, State.orderPath_took _ c _⟩
  · intro s c rest hwait
    refine ⟨_, exec_pathInputWithdrawn hwait, ?_⟩
    have took := (s.dropPathSignal c rest).orderPath_took c (s.path.get c).ordered.onWithdrawal
    generalize (s.path.get c).ordered = o at took ⊢
    cases o <;> exact took
  · intro s n hwait
    refine ⟨_, exec_pathHingeUnsettled hwait, ?_⟩
    have took := (s.setHanded { s.handed with pathHinge := n }).orderPath_took .far
      (s.path.far.ordered.onHinge (Limits.hingeCap s.tables.limits))
    generalize s.path.far.ordered = o at took ⊢
    cases o <;> exact took

end Sys2Proof.Machine
end

section
/-! PROOFS. Overcurrent on a path: the trip, the rearm and the retry, with the record, the retry timer and what
protection hands on (R125, R126, R166 to R169). -/

namespace Sys2Proof.Machine

/-! ### The comparator (R125, R126) -/

theorem overTrip_iff (itrip current : Int) : overTrip itrip current = true ↔ itrip < current.natAbs := by
  simp only [overTrip, Bool.or_eq_true, decide_eq_true_iff]
  omega

/-! ### The records (R166, R167) -/

namespace FaultRecord
variable (r : FaultRecord) (cls : Int) (frame : Nat)

theorem trip_of_active (h : r.active = true) :
    r.trip cls frame = { r with count := countUpTo 255 r.count, lastFrame := frame } := by
  simp [trip, h]

theorem trip_of_inactive (h : r.active = false) :
    r.trip cls frame = ⟨true, true, judge cls true true, countUpTo 255 r.count, frame⟩ := by
  simp [trip, h, setTransition, judged]

/-- Every trip is an occurrence of an active condition (R166). -/
theorem trip_occurrence :
    (r.trip cls frame).active = true ∧ (r.trip cls frame).count = min 255 (r.count + 1)
      ∧ (r.trip cls frame).lastFrame = frame := by
  cases h : r.active
  · rw [trip_of_inactive r cls frame h]
    exact ⟨rfl, countUpTo_eq_min .., rfl⟩
  · rw [trip_of_active r cls frame h]
    exact ⟨h, countUpTo_eq_min .., rfl⟩

end FaultRecord

/-- An active, latched kind acts under RESUME and under LATCH (R163). -/
theorem judge_occurrence {cls : Int} (h : cls = 1 ∨ cls = 2) : judge cls true true = true := by
  rcases h with rfl | rfl <;> rfl

/-- With its condition inactive a kind acts under LATCH alone, while latched (R163). -/
theorem judge_inactive (cls : Int) (latched : Bool) :
    judge cls false latched = if cls = 2 then latched else false := by
  unfold judge
  by_cases resume : cls = 1
  · subst resume
    rfl
  · rw [if_neg resume]

/-! ### What protection does (R166 to R169) -/

namespace State
variable (s : State) (c : Cell)

/-- The blocks that wait for the paths once a path's overcurrent record has become the one given: the path is
handed its blocks where the in-force flag changes, and nothing where it does not (R161, R169). -/
def blocksAfter (r : FaultRecord) : PerCell (List Blocks) :=
  if r.inForce = (s.prot.record.get (.oc c)).inForce then s.handed.pathBlocks
  else s.handed.pathBlocks.set c
    (s.handed.pathBlocks.get c ++ [blocksOn (s.prot.record.set (.oc c) r) c])

theorem setFaults_oc (r : FaultRecord) :
    s.setFaults (s.prot.record.set (.oc c) r) = { s with
      prot := { s.prot with record := s.prot.record.set (.oc c) r }
      handed := { s.handed with pathBlocks := s.blocksAfter c r } } := by
  rw [setFaults_eq]
  unfold blocksAfter
  by_cases same : r.inForce = (s.prot.record.get (.oc c)).inForce
  · cases c <;> simp_all [pathKinds, PerFault.get_set, FaultKind.oc]
  · have changed : (s.prot.record.get (.oc c)).inForce ≠ r.inForce := Ne.symm same
    cases c <;> simp_all [pathKinds, PerFault.get_set, FaultKind.oc]

/-- The overcurrent record of a path after a trip. -/
def trippedRecord : FaultRecord :=
  (s.prot.record.get (.oc c)).trip (Protect.classOf s.tables.protect (FaultKind.oc c).num)
    s.alloc.frame.number

/-- The overcurrent record of a path after a retry (R167). -/
def retriedRecord : FaultRecord :=
  (s.prot.record.get (.oc c)).clearTransition (Protect.classOf s.tables.protect (FaultKind.oc c).num)

theorem takeTrip_eq :
    s.takeTrip c = { s with
      prot := ⟨s.prot.record.set (.oc c) (s.trippedRecord c),
        s.prot.retry.set c (some (10 * (s.tables.protect.getD 3 0).toNat))⟩
      link := s.link.notify s.alloc.frame.number (.fault (1#16 <<< (FaultKind.oc c).num))
      handed := { s.handed with pathBlocks := s.blocksAfter c (s.trippedRecord c) } } := by
  unfold takeTrip
  dsimp only
  rw [show FaultRecord.trip _ _ _ = s.trippedRecord c from rfl, setFaults_oc]
  rfl

/-- A trip with the condition active is a repeat occurrence, which hands nothing on (R166). -/
theorem trippedRecord_repeats (h : (s.prot.record.get (.oc c)).active = true) :
    (s.trippedRecord c).latched = (s.prot.record.get (.oc c)).latched
      ∧ (s.trippedRecord c).inForce = (s.prot.record.get (.oc c)).inForce
      ∧ s.blocksAfter c (s.trippedRecord c) = s.handed.pathBlocks := by
  have tripped : s.trippedRecord c = _ := FaultRecord.trip_of_active _ _ _ h
  have stays : (s.trippedRecord c).inForce = (s.prot.record.get (.oc c)).inForce := by rw [tripped]
  exact ⟨by rw [tripped], stays, if_pos stays⟩

/-- A trip with the condition inactive latches it, and acts under RESUME and under LATCH (R162, R163). -/
theorem trippedRecord_sets (h : (s.prot.record.get (.oc c)).active = false) :
    (s.trippedRecord c).latched = true
      ∧ (Protect.classOf s.tables.protect (FaultKind.oc c).num = 1
            ∨ Protect.classOf s.tables.protect (FaultKind.oc c).num = 2 →
          (s.trippedRecord c).inForce = true) := by
  have tripped : s.trippedRecord c = _ := FaultRecord.trip_of_inactive _ _ _ h
  rw [tripped]
  exact ⟨rfl, judge_occurrence⟩

theorem retriedRecord_eq :
    s.retriedRecord c = { s.prot.record.get (.oc c) with
      active := false
      inForce := judge (Protect.classOf s.tables.protect (FaultKind.oc c).num) false
        (s.prot.record.get (.oc c)).latched } := rfl

end State

section
variable {s : State} {c : Cell} {current : Int}

theorem exec_overcurrentTrip_trips (ha : (s.path.get c).armed = true) (he : (s.path.get c).eff ≠ .openPath)
    (hi : s.factory.itrip c < current.natAbs) :
    exec (.overcurrentTrip c current) s
      = .next ((s.setPath c { s.path.get c with armed := false }).takeTrip c) := by
  refine if_pos ?_
  rw [(overTrip_iff _ _).2 hi, ha, Bool.and_true, Bool.true_and, bne_iff_ne]
  exact he

theorem exec_overcurrentTrip_stays
    (h : (s.path.get c).armed = false ∨ (s.path.get c).eff = .openPath
      ∨ ¬ s.factory.itrip c < current.natAbs) :
    exec (.overcurrentTrip c current) s = .next s := by
  refine if_neg fun trips => ?_
  simp only [Bool.and_eq_true, bne_iff_ne, overTrip_iff, and_assoc] at trips
  obtain ⟨armed, shut, exceeds⟩ := trips
  rcases h with h | h | h
  · exact Bool.eq_false_iff.1 h armed
  · exact shut h
  · exact h exceeds

theorem exec_tripRearm_over (h : s.factory.itrip c < current.natAbs) :
    exec (.tripRearm c current) s = .next s := if_pos ((overTrip_iff _ _).2 h)

theorem exec_tripRearm_arms (h : ¬ s.factory.itrip c < current.natAbs) :
    exec (.tripRearm c current) s
      = .next { s with path := s.path.set c { s.path.get c with armed := true } } :=
  if_neg fun hover => h ((overTrip_iff _ _).1 hover)

theorem exec_retryTimerExpiry_early (h : s.prot.retry.get c ≠ some 0) :
    exec (.retryTimerExpiry c) s = .next s := if_neg fun hup => h ((timeUp_iff _).1 hup)

theorem exec_retryTimerExpiry_due (h : s.prot.retry.get c = some 0) :
    exec (.retryTimerExpiry c) s = .next { s with
      prot := ⟨s.prot.record.set (.oc c) (s.retriedRecord c), s.prot.retry.set c none⟩
      handed := { s.handed with pathBlocks := s.blocksAfter c (s.retriedRecord c) } } := by
  have taken : exec (.retryTimerExpiry c) s = .next (State.setProt
      (s.setFaults (s.prot.record.set (.oc c) (s.retriedRecord c)))
      ⟨s.prot.record.set (.oc c) (s.retriedRecord c), s.prot.retry.set c none⟩) :=
    if_pos ((timeUp_iff _).2 h)
  rw [taken, State.setFaults_oc]
  rfl

end

/-- Settles O22: each command gives the overcurrent record of the path alone, and hands the path its blocks where
the in-force flag of that record changes. -/
theorem tripsRearmsAndRetries : Obligations.TripsRearmsAndRetries := by
  unfold Obligations.TripsRearmsAndRetries
  refine ⟨?_, fun s c => exec_retryTimerExpiry_early, ?_⟩
  · intro s c current k above p
    have hk : k = .oc c := by cases c <;> rfl
    clear_value k
    subst hk
    refine ⟨fun ha he hi => ?_, exec_overcurrentTrip_stays, exec_tripRearm_arms, exec_tripRearm_over⟩
    have taken := exec_overcurrentTrip_trips ha he hi
    rw [State.takeTrip_eq] at taken
    refine ⟨_, taken, rfl, rfl, rfl, rfl, fun j hj => PerFault.get_set_ne _ _ hj, ?_⟩
    dsimp only
    rw [PerFault.get_set_same]
    obtain ⟨active, count, frame⟩ := FaultRecord.trip_occurrence (s.prot.record.get (.oc c))
      (Protect.classOf s.tables.protect (FaultKind.oc c).num) s.alloc.frame.number
    refine ⟨active, count, frame, fun again => ?_, fun first => ?_⟩
    · obtain ⟨latched, inForce, blocks⟩ := s.trippedRecord_repeats c again
      exact ⟨latched, inForce, congrArg (fun l => { s.handed with pathBlocks := l }) blocks⟩
    · obtain ⟨latched, inForce⟩ := s.trippedRecord_sets c first
      exact ⟨latched, inForce, rfl⟩
  · intro s c h k old stays
    have hk : k = .oc c := by cases c <;> rfl
    clear_value k
    subst hk
    have acts : (s.retriedRecord c).inForce = stays := by
      rw [s.retriedRecord_eq c, judge_inactive]
      dsimp only [stays]
      by_cases latches : Protect.classOf s.tables.protect (FaultKind.oc c).num = 2
      · rw [if_pos latches, latches]
        rfl
      · rw [if_neg latches]
        split
        · contradiction
        · rfl
    refine ⟨_, exec_retryTimerExpiry_due h, rfl, rfl, ?_, fun j hj => PerFault.get_set_ne _ _ hj, ?_⟩
    · rw [← acts]
      exact PerFault.get_set_same ..
    · rw [← acts]
      rfl

end Sys2Proof.Machine
end

section
/-! PROOFS. The input stage: its settings, the filters of its comparators, and what each of its moves keeps of the
agreement between its state, the filtered levels and the suspend reasons (R129 to R141). -/

namespace Sys2Proof.Machine

/-! ### Settings (R139) -/

/-- A value in a field's range, and at one of its steps. -/
abbrev Field.Holds (f : Field) (x : Int) : Prop := f.lo ≤ x ∧ x ≤ f.hi ∧ x % f.step = 0

/-- An adjusted value is one that its field holds, where the ends of the range stand at steps (R44). -/
theorem Field.adjust_holds {f : Field} (hle : f.lo ≤ f.hi) (hlo : f.lo % f.step = 0)
    (hhi : f.hi % f.step = 0) (x : Int) : f.Holds (f.adjust x) := by
  obtain ⟨lo, hi⟩ := f.adjust_mem hle x
  refine ⟨lo, hi, ?_⟩
  unfold Field.adjust clamp
  split
  · exact hlo
  · split
    · exact hhi
    · exact Int.mul_emod_left ..

theorem ilimField_adjust_holds (x : Int) : ilimField.Holds (ilimField.adjust x) :=
  Field.adjust_holds (by decide) (by decide) (by decide) x

theorem vfloorField_adjust_holds (x : Int) : vfloorField.Holds (vfloorField.adjust x) :=
  Field.adjust_holds (by decide) (by decide) (by decide) x

/-- A setting after an argument of INPUT-LIMIT is one that its field holds (R140). -/
theorem settingAfter_holds {f : Field} (hf : ∀ x, f.Holds (f.adjust x)) {old : Int} (h : f.Holds old)
    (arg : Word) : f.Holds (settingAfter f old arg) := by
  unfold settingAfter
  split
  · exact h
  · exact hf _

/-- SD stays in 100..1000 on a set (R141). -/
theorem sagStep_mem {sd : Int} (h : 100 ≤ sd ∧ sd ≤ 1000) (vfloor vbus : Int) :
    100 ≤ sagStep vfloor sd vbus ∧ sagStep vfloor sd vbus ≤ 1000 := by
  unfold sagStep
  split
  · omega
  · split <;> omega

/-! ### Filters (R131, R144) -/

section
variable {f : Filtered} {running : Bool}

theorem attachOk_stopped : AttachOk false f ↔ f.timer = none := Iff.rfl

theorem attachOk_running : AttachOk true f ↔ f.Agrees := Iff.rfl

theorem AttachOk.expire : AttachOk running f.expire := by
  cases running with
  | false => rfl
  | true => exact f.expire_agrees

theorem AttachOk.start (n : Nat) : AttachOk true (f.start n) := by
  rw [attachOk_running]
  by_cases h : f.raw = f.level <;> simp [Filtered.Agrees, Filtered.start, h]

theorem AttachOk.tick (ok : AttachOk running f) : AttachOk running f.tick := by
  cases running with
  | false => exact countDown_eq_none.2 ok
  | true =>
    show (countDown f.timer).isSome ↔ f.raw ≠ f.level
    rw [countDown_isSome]
    exact ok

/-- The raw output changes: its filter follows it where the part runs, and stays stopped before. -/
theorem AttachOk.rawTo {s : State} (ok : AttachOk (decide (s.phase = .running)) f) (raw : Bool) :
    AttachOk (decide (s.phase = .running)) (s.rawTo f raw) := by
  unfold State.rawTo
  by_cases h : s.phase = .running
  · rw [decide_eq_true h, attachOk_running] at ok ⊢
    rw [if_pos h]
    exact Filtered.rawTo_agrees ok _ raw
  · rw [decide_eq_false h] at ok ⊢
    rw [if_neg h]
    exact ok

/-- A change of the raw output leaves the filtered level (R131). -/
theorem State.rawTo_level (s : State) (raw : Bool) : (s.rawTo f raw).level = f.level := by
  unfold State.rawTo Filtered.rawTo
  split
  · split <;> rfl
  · rfl

end

/-! ### The state, the filtered levels and the suspend reasons (R129, R133 to R136) -/

/-- The filtered levels and the presence of a suspend reason are those of a state. -/
def InputState.Fits (present ov suspended : Bool) : InputState → Prop
  | .detached => ¬ (present = true ∧ ov = false)
  | .qualifying => present = true ∧ ov = false
  | .active => present = true ∧ ov = false ∧ suspended = false
  | .suspended => present = true ∧ ov = false ∧ suspended = true
  | .blocked => ov = true

/-- The timers, the settings and SD are as they should be, whatever the levels and the suspend reasons. -/
structure InputStage.Sound (running : Bool) (r : InputStage) : Prop where
  qual : r.qual.isSome ↔ r.state = .qualifying
  ilim : ilimField.Holds r.ilim
  vfloor : vfloorField.Holds r.vfloor
  sd : 100 ≤ r.sd ∧ r.sd ≤ 1000
  present : AttachOk running r.present
  ov : AttachOk running r.ov

/-- A state fits the filtered levels and the suspend reasons of a record. -/
abbrev InputStage.FitsIn (r : InputStage) (new : InputState) : Prop :=
  new.Fits r.present.level r.ov.level r.reasons.any

/-- The input stage is consistent, its filters running or not. -/
structure InputStage.Consistent (running : Bool) (r : InputStage) : Prop extends r.Sound running where
  fits : r.FitsIn r.state

theorem InputStage.consistent_iff (running : Bool) (r : InputStage) :
    r.Consistent running ↔ InputOk r ∧ AttachOk running r.present ∧ AttachOk running r.ov := by
  have fits_iff : r.FitsIn r.state
      ↔ (r.state = .qualifying ∨ r.state = .active ∨ r.state = .suspended →
          r.present.level = true ∧ r.ov.level = false)
        ∧ (r.state = .blocked → r.ov.level = true)
        ∧ (r.state = .detached → ¬ (r.present.level = true ∧ r.ov.level = false))
        ∧ (r.state = .active → r.reasons.any = false) ∧ (r.state = .suspended → r.reasons.any = true) := by
    unfold InputStage.FitsIn
    cases r.state <;> simp [InputState.Fits, and_assoc]
  constructor
  · rintro ⟨⟨qual, ilim, vfloor, sd, present, ov⟩, fits⟩
    obtain ⟨attached, blocked, detached, active, suspended⟩ := fits_iff.1 fits
    exact ⟨⟨attached, blocked, detached, qual, active, suspended, ilim, vfloor, sd⟩, present, ov⟩
  · rintro ⟨⟨attached, blocked, detached, qual, active, suspended, ilim, vfloor, sd⟩, present, ov⟩
    exact ⟨⟨qual, ilim, vfloor, sd, present, ov⟩,
      fits_iff.2 ⟨attached, blocked, detached, active, suspended⟩⟩

namespace InputState.Fits
variable {state : InputState} {present ov suspended : Bool}

/-- An edge of PRESENT: without a source the state is DETACHED, and with one it stays but for DETACHED (R133). -/
theorem presentEdge (h : state.Fits present ov suspended) (level : Bool) :
    (stateAfterEdge level ov .present state).Fits level ov suspended := by
  cases level with
  | false => cases state <;> simp [stateAfterEdge, InputState.Fits]
  | true =>
    cases state with
    | detached => cases ov <;> simp [stateAfterEdge, InputState.Fits]
    | blocked => exact h
    | qualifying | active | suspended =>
      obtain ⟨-, rest⟩ := h
      exact ⟨rfl, rest⟩

/-- An edge of OV: with an overvoltage the state is BLOCKED, and without one DETACHED and BLOCKED follow the level
of PRESENT (R133). -/
theorem ovEdge (h : state.Fits present ov suspended) (level : Bool) :
    (stateAfterEdge present level .ov state).Fits present level suspended := by
  cases level with
  | true => cases state <;> rfl
  | false =>
    cases state with
    | detached | blocked => cases present <;> simp [stateAfterEdge, InputState.Fits]
    | qualifying =>
      obtain ⟨attached, -⟩ := h
      exact ⟨attached, rfl⟩
    | active | suspended =>
      obtain ⟨attached, -, any⟩ := h
      exact ⟨attached, rfl, any⟩

end InputState.Fits

/-- The table of edges gives a state that fits the record with the edge, and so do the edges that it calls not
reached (R133, log 17). -/
theorem InputStage.FitsIn.edge {r : InputStage} (h : r.FitsIn r.state) (k : Comparator) :
    (r.recordEdge k).FitsIn (stateAfterEdge (r.recordEdge k).present.level (r.recordEdge k).ov.level k
      (r.recordEdge k).state) := by
  cases k with
  | present => exact h.presentEdge r.present.raw
  | ov => exact h.ovEdge r.ov.raw

namespace InputStage.Sound
variable {r : InputStage} {running : Bool}

theorem recordEdge (ok : r.Sound running) (k : Comparator) : (r.recordEdge k).Sound running := by
  cases k with
  | present => exact { ok with present := .expire }
  | ov => exact { ok with ov := .expire }

/-- Entering a state starts the qualification timer in QUALIFYING alone, and SD at 1000 in ACTIVE (R134, R136). -/
theorem enter (ok : r.Sound running) (n : Nat) (new : InputState) : (r.enter n new).Sound running where
  qual := by cases new <;> simp [InputStage.enter]
  ilim := ok.ilim
  vfloor := ok.vfloor
  sd := by
    unfold InputStage.enter
    by_cases h : new = .active
    · simp [h]
    · simpa [h] using ok.sd
  present := ok.present
  ov := ok.ov

end InputStage.Sound

/-- The input stage as power-on leaves it: detached, its filters stopped (R144). -/
theorem powerOnInput_consistent (presentRaw ovRaw : Bool) :
    (powerOnInput presentRaw ovRaw).Consistent false where
  qual := by simp [powerOnInput]
  ilim := (by decide : ilimField.Holds (Limits.ilimDefault defaultLimits))
  vfloor := (by decide : vfloorField.Holds (Limits.vfloorDefault defaultLimits))
  sd := (by decide : 100 ≤ (1000 : Int) ∧ (1000 : Int) ≤ 1000)
  present := rfl
  ov := rfl
  fits := (by decide : ¬ (false = true ∧ false = false))

namespace State
variable (s : State) {running : Bool}

theorem moveInput_consistent {new : InputState} (sound : s.input.Sound running) (fits : s.input.FitsIn new) :
    (s.moveInput new).input.Consistent running := by
  by_cases h : new = s.input.state
  · subst h
    rw [moveInput_same]
    exact ⟨sound, fits⟩
  · rw [moveInput_eq s new h]
    exact ⟨sound.enter _ new, fits⟩

/-- The state follows the suspend reasons from ACTIVE to SUSPENDED and back, and fits them otherwise (R136). -/
theorem setReasons_consistent (new : SuspendReasons) (ok : s.input.Consistent running) :
    (s.setReasons new).input.Consistent running := by
  obtain ⟨sound, fits⟩ := ok
  have sound' : { s.input with reasons := new }.Sound running := { sound with }
  unfold InputStage.FitsIn at fits
  rw [setReasons_eq]
  dsimp only
  split
  · rename_i suspends
    obtain ⟨active, -, any⟩ := suspends
    rw [active] at fits
    obtain ⟨present, ov, -⟩ := fits
    exact moveInput_consistent _ sound' ⟨present, ov, any⟩
  · rename_i suspendsNot
    split
    · rename_i resumes
      obtain ⟨suspended, -, none⟩ := resumes
      rw [suspended] at fits
      obtain ⟨present, ov, -⟩ := fits
      exact moveInput_consistent _ sound' ⟨present, ov, none⟩
    · rename_i resumesNot
      refine ⟨sound', ?_⟩
      show s.input.state.Fits s.input.present.level s.input.ov.level new.any
      cases hs : s.input.state with
      | detached | qualifying | blocked =>
        rw [hs] at fits
        exact fits
      | active =>
        rw [hs] at fits
        obtain ⟨present, ov, old⟩ := fits
        exact ⟨present, ov, Bool.eq_false_iff.2 fun any => suspendsNot ⟨hs, old, any⟩⟩
      | suspended =>
        rw [hs] at fits
        obtain ⟨present, ov, old⟩ := fits
        exact ⟨present, ov, Bool.ne_false_iff.1 fun none => resumesNot ⟨hs, old, none⟩⟩

end State

end Sys2Proof.Machine
end

section
/-! PROOFS. The input stage with the phase of the part: the operations that leave both alone, and what the moves,
the settings, the revert and the loads keep of them (R136 to R145, R196, R205). -/

namespace Sys2Proof.Machine

/-! ### The input stage and the phase of the part -/

/-- The input stage, and the phase of the part, with which its filters start to run (R144). -/
structure InputView where
  phase : Phase
  input : InputStage

/-- The phase and the input stage of a state. -/
def State.inputView (s : State) : InputView := ⟨s.phase, s.input⟩

/-- The input stage is consistent, its filters running from the completion of the power-on load on. -/
def InputView.Consistent (v : InputView) : Prop := v.input.Consistent (decide (v.phase = .running))

theorem State.inputView_consistent_iff (s : State) :
    s.inputView.Consistent ↔ InputOk s.input ∧ AttachOk (decide (s.phase = .running)) s.input.present
      ∧ AttachOk (decide (s.phase = .running)) s.input.ov :=
  s.input.consistent_iff _

namespace State
variable (s : State)

/-! ### Operations that leave both alone -/

@[simp] theorem setHanded_inputView (h : Handed) : (s.setHanded h).inputView = s.inputView := rfl
@[simp] theorem setFresh_inputView (v : Nat) : (s.setFresh v).inputView = s.inputView := rfl
@[simp] theorem setSeenOf_inputView (c : Cell) (v : SeqSeen) : (s.setSeenOf c v).inputView = s.inputView := rfl
@[simp] theorem dropSeqSet_inputView (c : Cell) (rest : List MeasSet) :
    (s.dropSeqSet c rest).inputView = s.inputView := rfl
@[simp] theorem dropSeqSignal_inputView (c : Cell) (rest : List InputSignal) :
    (s.dropSeqSignal c rest).inputView = s.inputView := rfl
@[simp] theorem dropPathSignal_inputView (c : Cell) (rest : List InputSignal) :
    (s.dropPathSignal c rest).inputView = s.inputView := rfl
@[simp] theorem discardPending_inputView : s.discardPending.inputView = s.inputView := rfl

@[simp] theorem orderPath_inputView (c : Cell) (o : Order) : (s.orderPath c o).inputView = s.inputView := rfl

@[simp] theorem updateSeq_inputView (c : Cell) (new : SeqRecord) :
    (s.updateSeq c new).inputView = s.inputView := by
  rw [updateSeq_eq]
  rfl

@[simp] theorem takeEventSeq_inputView (c : Cell) (new : SeqRecord) :
    (s.takeEventSeq c new).inputView = s.inputView := updateSeq_inputView _ c new

@[simp] theorem handleSet_inputView (c : Cell) (m : MeasSet) : (s.handleSet c m).inputView = s.inputView := by
  rw [handleSet_frame]
  rfl

@[simp] theorem expireNow_inputView (c : Cell) : (s.expireNow c).inputView = s.inputView :=
  s.updateSeq_inputView c _

@[simp] theorem setCeiling_inputView (v : Int) (c : Cell) : (s.setCeiling v c).inputView = s.inputView :=
  s.updateSeq_inputView c _

@[simp] theorem restartCell_inputView (c : Cell) : (s.restartCell c).inputView = s.inputView :=
  s.takeEventSeq_inputView c _

@[simp] theorem protectOn_inputView (m : MeasSet) : (s.protectOn m).inputView = s.inputView := by
  unfold protectOn
  dsimp only
  rw [notifyFaults_eq]
  split <;> rfl

@[simp] theorem takeFrame_inputView (m : MeasSet) : (s.takeFrame m).inputView = s.inputView := by
  rw [takeFrame_frame]
  rfl

@[simp] theorem endTransferOnEvent_inputView (cause : EndCause) :
    (s.endTransferOnEvent cause).inputView = s.inputView := by
  rw [endTransferOnEvent_frame]
  rfl

@[simp] theorem setInhibitSet_inputView (c : Cell) (new : Byte) :
    (s.setInhibitSet c new).inputView = s.inputView := by
  rw [setInhibitSet_frame]
  rfl

@[simp] theorem setCopies_inputView (r : RecordId) (v : Copies) :
    (s.setCopies r v).inputView = s.inputView := by
  rw [setCopies_frame]
  rfl

@[simp] theorem promote_inputView (r : RecordId) (k : Copies) (source : ProfileSource) :
    (s.promote r k source).inputView = s.inputView := by
  rw [promote_frame]
  rfl

@[simp] theorem bring_inputView (r : RecordId) (offset : Nat) (words : List Word) :
    (s.bring r offset words).inputView = s.inputView := by
  unfold bring
  rw [force_frame]
  rfl

theorem powerOnLoad_input : s.powerOnLoad.state.input = s.input := by
  unfold powerOnLoad
  rw [powerOnLoad_frame]

@[simp] theorem loadRecords_inputView (rs : List RecordId) :
    (s.loadRecords rs).state.inputView = s.inputView := by
  have frame := loadRecords_frame rs ⟨s, [], [], []⟩
  unfold loadRecords
  rw [inputView, frame]
  rfl

/-- What leaves both alone as it is done to a cell leaves them as it is done to each cell of a target. -/
theorem forEach_inputView (cells : List Cell) {f : Cell → State → State}
    (h : ∀ c u, (f c u).inputView = u.inputView) : (s.forEach cells f).inputView = s.inputView := by
  unfold forEach
  induction cells generalizing s with
  | nil => rfl
  | cons c cells ih => exact (ih (f c s)).trans (h c s)

/-! ### Moves and settings (R136, R139, R145) -/

theorem moveInput_phase (new : InputState) : (s.moveInput new).phase = s.phase := by rw [moveInput_frame]

theorem setReasons_phase (new : SuspendReasons) : (s.setReasons new).phase = s.phase := by
  rw [setReasons_frame]

theorem moveInput_keeps {new : InputState} (sound : s.input.Sound (decide (s.phase = .running)))
    (fits : s.input.FitsIn new) : (s.moveInput new).inputView.Consistent := by
  have moved := s.moveInput_consistent sound fits
  rwa [← s.moveInput_phase new] at moved

theorem setReasons_keeps (new : SuspendReasons) (ok : s.inputView.Consistent) :
    (s.setReasons new).inputView.Consistent := by
  have changed := s.setReasons_consistent new ok
  rwa [inputView, ← s.setReasons_phase new] at changed

/-- Values that their fields hold come into force as ILIM and VFLOOR (R139). -/
theorem setSettings_keeps {ilim vfloor : Int} (hi : ilimField.Holds ilim) (hv : vfloorField.Holds vfloor)
    (ok : s.inputView.Consistent) :
    (s.setInput { s.input with ilim := ilim, vfloor := vfloor }).inputView.Consistent :=
  { ok with ilim := hi, vfloor := hv }

/-! ### The revert (R145, R205) -/

theorem revertSettings_keeps (ok : s.inputView.Consistent) : s.revertSettings.inputView.Consistent :=
  s.setSettings_keeps (ilimField_adjust_holds _) (vfloorField_adjust_holds _) ok

theorem revertInput_keeps (ok : s.inputView.Consistent) : s.revertInput.inputView.Consistent := by
  unfold revertInput
  split
  · exact s.revertHost.revertSettings_keeps (s.setReasons_keeps _ ok)
  · exact s.revertSettings.setReasons_keeps _ (s.revertSettings_keeps ok)

@[simp] theorem revertTransfer_inputView (cause : EndCause) :
    (s.revertTransfer cause).inputView = s.inputView := by
  rw [revertTransfer_frame]
  rfl

@[simp] theorem revertTransferAfterGrant_inputView (first : Bool) :
    (s.revertTransferAfterGrant first).inputView = s.inputView := by
  rw [revertTransferAfterGrant_frame]
  rfl

@[simp] theorem revertCeilings_inputView : s.revertCeilings.inputView = s.inputView := by
  rw [revertCeilings_frame]
  rfl

@[simp] theorem revertInhibits_inputView : s.revertInhibits.inputView = s.inputView := by
  rw [revertInhibits_frame]
  rfl

/-- In whatever order the actions come, the input stage's part alone changes it (R205). -/
theorem revert_keeps (ok : s.inputView.Consistent) : s.revert.inputView.Consistent := by
  unfold revert revertInputAndTransfer
  dsimp only
  rw [setFresh_inputView, revertInhibits_inputView, revertCeilings_inputView]
  split
  · rw [revertTransferAfterGrant_inputView]
    exact s.revertInput_keeps ok
  · have ended := s.revertTransfer_inputView .host
    exact revertInput_keeps _ (ended ▸ ok)

/-! ### Power-on and time (R144, R196) -/

theorem powerOn_keeps : s.powerOn.inputView.Consistent :=
  powerOnInput_consistent s.input.present.raw s.input.ov.raw

/-- The completion of the load brings ILIM and VFLOOR in and starts the filters (R144). -/
theorem openUp_keeps (ok : s.inputView.Consistent) : s.openUp.inputView.Consistent where
  qual := ok.qual
  ilim := ilimField_adjust_holds _
  vfloor := vfloorField_adjust_holds _
  sd := ok.sd
  present := .start _
  ov := .start _
  fits := ok.fits

theorem tick_keeps (ok : s.inputView.Consistent) : s.tick.inputView.Consistent where
  qual := by
    show (countDown s.input.qual).isSome ↔ _
    rw [countDown_isSome]
    exact ok.qual
  ilim := ok.ilim
  vfloor := ok.vfloor
  sd := ok.sd
  present := ok.present.tick
  ov := ok.ov.tick
  fits := ok.fits

end State

end Sys2Proof.Machine
end

section
/-! PROOFS. Every command, and every step, keeps the input stage consistent: most commands leave it and the phase of
the part alone (R129 to R145). -/

namespace Sys2Proof.Machine

/-- Whatever state a command gives, its input stage is consistent where that of the state before was. -/
def InputKeeping (s : State) (o : Result) : Prop :=
  s.inputView.Consistent → ∀ t, o = .next t → t.inputView.Consistent

namespace InputKeeping
variable {s t : State}

theorem next (h : s.inputView.Consistent → t.inputView.Consistent) : InputKeeping s (.next t) := by
  intro ok u hu
  injection hu with hu
  exact hu ▸ h ok

theorem quiet (h : t.inputView = s.inputView) : InputKeeping s (.next t) := next fun ok => h ▸ ok

theorem stay : InputKeeping s (.next s) := quiet rfl

/-- A request keeps what carrying it out keeps (R199). -/
theorem request {k : RequestKind} {tag : Byte} {act : State → Answer}
    (h : s.inputView.Consistent → (act s).state.inputView.Consistent) :
    InputKeeping s (s.request k tag act) := by
  by_cases hrun : s.phase = .running
  · rw [s.request_running k tag act hrun]
    exact next h
  · rw [s.request_closed k tag act hrun]
    exact stay

/-- A request whose answer leaves the input stage and the phase alone. -/
theorem request_quiet {k : RequestKind} {tag : Byte} {act : State → Answer}
    (h : (act s).state.inputView = s.inputView) : InputKeeping s (s.request k tag act) :=
  request fun ok => h ▸ ok

end InputKeeping

/-! ### Requests that leave the input stage alone -/

namespace State
variable (s : State)

theorem ceiling_inputView (target : Byte) (value : Word) :
    (s.ceiling target value).state.inputView = s.inputView := by
  unfold ceiling
  split
  · exact s.forEach_inputView _ fun c u => u.setCeiling_inputView _ c
  · rfl

theorem chargeRestart_inputView (target : Byte) : (s.chargeRestart target).state.inputView = s.inputView := by
  unfold chargeRestart
  split
  · split
    · rfl
    · exact s.forEach_inputView _ fun c u => u.restartCell_inputView c
  · rfl

theorem gaugeSeed_inputView (target : Byte) : (s.gaugeSeed target).state.inputView = s.inputView := by
  unfold gaugeSeed
  split
  · exact s.forEach_inputView _ fun c u => rfl
  · rfl

theorem acceptInhibit_inputView (cells : List Cell) (f : Byte → Byte) :
    (s.acceptInhibit cells f).state.inputView = s.inputView :=
  s.forEach_inputView cells fun c u => u.setInhibitSet_inputView c _

theorem claim_inputView (cells : List Cell) (mask blocking : Byte) :
    (s.claim cells mask blocking).state.inputView = s.inputView := by
  unfold claim
  split
  · exact s.acceptInhibit_inputView cells _
  · rfl

theorem placing_inputView (target mask : Byte) {act : List Cell → Answer}
    (h : ∀ cells, (act cells).state.inputView = s.inputView) :
    (s.placing target mask act).state.inputView = s.inputView := by
  unfold placing
  split
  · split
    · rfl
    · exact h _
  · rfl

theorem inhibitClear_inputView (target mask : Byte) :
    (s.inhibitClear target mask).state.inputView = s.inputView := by
  unfold inhibitClear
  split
  · exact s.acceptInhibit_inputView _ _
  · rfl

theorem faultClear_inputView (mask : Word) : (s.faultClear mask).state.inputView = s.inputView := by
  unfold faultClear
  split <;> rfl

theorem writeRecord_inputView (final : Bool) (id offset : Byte) (r : RecordId) (words : List Word) :
    (s.writeRecord final id offset r words).state.inputView = s.inputView := by
  unfold writeRecord
  split
  · rfl
  · split
    · split
      · exact s.promote_inputView r _ .write
      · exact s.setCopies_inputView r _
    · exact s.bring_inputView r _ words

theorem tableWrite_inputView (final : Bool) (id offset flags : Byte) (words : List Word) :
    (s.tableWrite final id offset flags words).state.inputView = s.inputView := by
  unfold tableWrite
  split
  · rfl
  · split
    · rfl
    · split
      · exact s.writeRecord_inputView final id offset _ words
      all_goals rfl

theorem storeRequest_inputView (mask : Word) : (s.storeRequest mask).state.inputView = s.inputView := by
  unfold storeRequest
  split
  · rfl
  · show (s.startStore (recordsIn mask)).inputView = s.inputView
    unfold startStore
    split <;> rfl

theorem loadRequest_inputView (mask : Word) : (s.loadRequest mask).state.inputView = s.inputView := by
  unfold loadRequest
  split
  · rfl
  · exact s.loadRecords_inputView (recordsIn mask)

theorem cancelStore_inputView : s.cancelStore.state.inputView = s.inputView := by
  unfold cancelStore
  split <;> rfl

theorem writeMask_inputView (enabled : Word) : (s.writeMask enabled).state.inputView = s.inputView := by
  unfold writeMask
  split <;> rfl

/-! ### Requests that change the input stage (R140, R142, R206) -/

theorem inputLimit_keeps (ilim vfloor : Word) (ok : s.inputView.Consistent) :
    (s.inputLimit ilim vfloor).state.inputView.Consistent :=
  s.setSettings_keeps (settingAfter_holds ilimField_adjust_holds ok.ilim _)
    (settingAfter_holds vfloorField_adjust_holds ok.vfloor _) ok

theorem softReset_keeps (ok : s.inputView.Consistent) : s.softReset.state.inputView.Consistent := by
  show s.reopenQueue.revert.discardPending.inputView.Consistent
  rw [discardPending_inputView]
  exact s.reopenQueue.revert_keeps ok

end State

section
variable (s : State)

/-! ### Commands that change the input stage or the phase (R130 to R141, R196, R205) -/

theorem execPowerOnLoad_inputKeeping : InputKeeping s (execPowerOnLoad s) := by
  unfold execPowerOnLoad
  split
  · rename_i hreset
    have brought := s.powerOnLoad_input
    generalize s.powerOnLoad = p at brought ⊢
    refine .next fun ok => ?_
    have before : s.input.Consistent (decide (s.phase = .running)) := ok
    rw [hreset, ← brought] at before
    exact before
  · exact .stay

theorem execPowerOnLoadCompletion_inputKeeping : InputKeeping s (execPowerOnLoadCompletion s) := by
  unfold execPowerOnLoadCompletion
  split
  · exact .next s.openUp_keeps
  · exact .stay

theorem execInputSagDerateStep_inputKeeping : InputKeeping s (execInputSagDerateStep s) := by
  unfold execInputSagDerateStep
  split
  · dsimp only
    split
    · exact .next fun ok => { ok with sd := sagStep_mem ok.sd _ _ }
    · exact .quiet rfl
  · exact .stay

theorem execDieSuspendReasonChange_inputKeeping : InputKeeping s (execDieSuspendReasonChange s) := by
  unfold execDieSuspendReasonChange
  split
  · exact .next fun ok => State.setReasons_keeps _ _ ok
  · exact .stay

theorem execComparatorRawChange_inputKeeping (vbus : Int) :
    InputKeeping s (execComparatorRawChange vbus s) := by
  unfold execComparatorRawChange
  refine .next fun ok => { ok with present := ok.present.rawTo _, ov := ok.ov.rawTo _, fits := ?_ }
  show s.input.state.Fits (s.rawTo _ _).level (s.rawTo _ _).level _
  rw [s.rawTo_level, s.rawTo_level]
  exact ok.fits

theorem execAttachFilterExpiry_inputKeeping (k : Comparator) :
    InputKeeping s (execAttachFilterExpiry k s) := by
  unfold execAttachFilterExpiry
  split
  · exact .next fun ok =>
      State.moveInput_keeps (s.setInput (s.input.recordEdge k)) (ok.toSound.recordEdge k) (ok.fits.edge k)
  · exact .stay

/-- QUALIFYING fits the filtered levels of an attached source, and the suspend reasons choose between ACTIVE and
SUSPENDED (R134). -/
theorem execQualificationExpiry_inputKeeping : InputKeeping s (execQualificationExpiry s) := by
  unfold execQualificationExpiry
  split
  · rename_i expires
    obtain ⟨qualifying, -⟩ := expires
    refine .next fun ok => s.moveInput_keeps ok.toSound ?_
    have fits : s.input.FitsIn s.input.state := ok.fits
    rw [qualifying] at fits
    obtain ⟨present, ov⟩ := fits
    cases any : s.input.reasons.any with
    | false => exact ⟨present, ov, any⟩
    | true => exact ⟨present, ov, any⟩
  · exact .stay

theorem execSupervisorExpiry_inputKeeping : InputKeeping s (execSupervisorExpiry s) := by
  unfold execSupervisorExpiry
  split
  · exact .next fun ok => State.revert_keeps _ ok
  · exact .stay

end

/-! ### Every command and every step -/

/-- Every command keeps the input stage consistent. -/
theorem exec_inputKeeping (s : State) (i : Instr) : InputKeeping s (exec i s) := by
  cases i with
  | powerOnReset => exact .next fun _ => s.powerOn_keeps
  | powerOnLoad => exact execPowerOnLoad_inputKeeping s
  | powerOnLoadCompletion => exact execPowerOnLoadCompletion_inputKeeping s
  | inputSagDerateStep => exact execInputSagDerateStep_inputKeeping s
  | dieSuspendReasonChange => exact execDieSuspendReasonChange_inputKeeping s
  | comparatorRawChange vbus => exact execComparatorRawChange_inputKeeping s vbus
  | attachFilterExpiry k => exact execAttachFilterExpiry_inputKeeping s k
  | qualificationExpiry => exact execQualificationExpiry_inputKeeping s
  | supervisorExpiry => exact execSupervisorExpiry_inputKeeping s
  | inputLimit tag ilim vfloor => exact .request (s.inputLimit_keeps ilim vfloor)
  | inputSuspendSuspend | inputSuspendResume => exact .request (s.setReasons_keeps _)
  | softReset tag => exact .request s.softReset_keeps
  -- Whether the command takes place or not, another block's record alone has changed.
  | roundTimerExpiry | roundCompletion | counterSetSteps | grantsClearedOnWithdrawal | farGrantHingeCap
  | overcurrentTrip | tripRearm | rampTimerExpiry | retryTimerExpiry | settleTimerExpiry | startupSampleExpiry
  | badRequestFrame | unknownRequest | lengthError | readReply =>
    dsimp only [exec, execRoundTimerExpiry, execRoundCompletion, execCounterSetSteps,
      execGrantsClearedOnWithdrawal, execFarGrantHingeCap, execOvercurrentTrip, execTripRearm,
      execRampTimerExpiry, execRetryTimerExpiry, execSettleTimerExpiry, execStartupSampleExpiry,
      execBadRequestFrame, execUnknownRequest, execLengthError, execReadReply]
    split <;> exact .quiet rfl
  | emptyWrite => exact .stay
  -- Whether an event waits or not, a shared operation that leaves the input stage alone takes it.
  | sequencerSetHandling | seqInputGranted | seqInhibitEvent | seqFaultReasonUpdate | seqPromotion
  | protectionSetReaction | allocationFrame | pathInputGranted | pathInputWithdrawn | pathHingeUnsettled =>
    dsimp only [exec, execSequencerSetHandling, execSeqInputGranted, execSeqInhibitEvent,
      execSeqFaultReasonUpdate, execSeqPromotion, execProtectionSetReaction, execAllocationFrame,
      execPathInputGranted, execPathInputWithdrawn, execPathHingeUnsettled]
    split <;> exact .quiet (by simp)
  -- Both again, where the command decides more than once.
  | fullMark | pathOrderDelivery | pathRestrictionChange | foldRawChange | hingeFilterExpiry
  | recordCompletion =>
    dsimp only [exec, execFullMark, execPathOrderDelivery, execPathRestrictionChange, execFoldRawChange,
      execHingeFilterExpiry, execRecordCompletion]
    repeat' split
    all_goals exact .quiet rfl
  | safetyTimerExpiry | seqInputWithdrawn | transferEventEnd =>
    dsimp only [exec, execSafetyTimerExpiry, execSeqInputWithdrawn, execTransferEventEnd]
    repeat' split
    all_goals exact .quiet (by simp)
  | identify | status | allocation => exact InputKeeping.request_quiet (act := fun t => t.shows _) rfl
  | measure tag sect => exact .request_quiet (congrArg State.inputView (s.measure_state sect))
  | cell tag cell sect => exact .request_quiet (congrArg State.inputView (s.cellRecord_state cell sect))
  | faults tag sect => exact .request_quiet (congrArg State.inputView (s.faults_state sect))
  | inputSuspendRead tag func => exact .request_quiet (congrArg State.inputView (s.readSuspend_state func))
  | ceiling tag target value => exact .request_quiet (s.ceiling_inputView target value)
  | inhibitSelect tag target mask | inhibitEmptySelect tag target mask =>
    exact .request_quiet (s.placing_inputView target mask fun cells => s.claim_inputView cells mask _)
  | inhibitSet tag target mask =>
    exact .request_quiet (s.placing_inputView target mask fun cells => s.acceptInhibit_inputView cells _)
  | inhibitClear tag target mask => exact .request_quiet (s.inhibitClear_inputView target mask)
  | inhibitTest tag func target mask =>
    exact .request_quiet (congrArg State.inputView (s.inhibitTest_state func target mask))
  | faultClear tag mask => exact .request_quiet (s.faultClear_inputView mask)
  | chargeRestart tag target => exact .request_quiet (s.chargeRestart_inputView target)
  | gaugeSeed tag target => exact .request_quiet (s.gaugeSeed_inputView target)
  | balanceRead tag func => exact .request_quiet (congrArg State.inputView (s.readBalance_state func))
  | balanceEnable | noticeFetch => exact .request_quiet rfl
  | balanceDisable | balanceCancel => exact .request_quiet (State.endTransferOnEvent_inputView _ .host)
  | tableRead tag id offset count =>
    exact .request_quiet (congrArg State.inputView (s.tableRead_state id offset count))
  | tableWrite tag id offset flags words | tableWriteFinal tag id offset flags words =>
    exact .request_quiet (s.tableWrite_inputView _ id offset flags words)
  | store tag mask => exact .request_quiet (s.storeRequest_inputView mask)
  | load tag mask => exact .request_quiet (s.loadRequest_inputView mask)
  | storeCancel tag => exact .request_quiet s.cancelStore_inputView
  | noticeMaskRead tag func enabled =>
    exact .request_quiet (congrArg State.inputView (s.readMask_state func))
  | noticeMaskWrite tag enabled => exact .request_quiet (s.writeMask_inputView enabled)

/-- Settles O57: every command keeps the input stage consistent, and so does passing time. -/
theorem inputStageStaysConsistent : Obligations.InputStageStaysConsistent := by
  unfold Obligations.InputStageStaysConsistent
  intro s t hs ht
  rw [← State.inputView_consistent_iff] at hs ⊢
  cases hq : s.pending with
  | nil =>
    rw [step_empty s hq] at ht
    injection ht with ht
    exact ht ▸ s.tick_keeps hs
  | cons i rest =>
    rw [step_cons s i rest hq] at ht
    exact exec_inputKeeping { s with pending := rest } i hs t ht

end Sys2Proof.Machine
end

section
/-! PROOFS. The commands on the input stage: the comparators and their filters, the qualification, the suspend
reasons, the sag derate and INPUT-LIMIT (R130 to R142). -/

namespace Sys2Proof.Machine

/-! ### Comparators and edges (R130, R131, R133) -/

/-- The table of edges, written out over every state (R133). -/
theorem stateAfterEdge_eq (present ov : Bool) (k : Comparator) (old : InputState) :
    stateAfterEdge present ov k old = edgeTable present ov k old := by
  cases k with
  | present => cases old <;> simp [stateAfterEdge, edgeTable]
  | ov => cases old <;> simp [stateAfterEdge, edgeTable]

/-- A move of the input stage, or none (R133 to R137). -/
theorem State.moveInput_took (s : State) (new : InputState) :
    (new = s.input.state → s.moveInput new = s)
      ∧ (new ≠ s.input.state → InputMoved s new (s.moveInput new)) :=
  ⟨fun h => h ▸ s.moveInput_same, s.moveInput_moved new⟩

theorem SuspendReasons.any_iff (r : SuspendReasons) : r.any = true ↔ r.host = true ∨ r.die = true :=
  Bool.or_eq_true_iff

section
variable {s : State}

/-- A comparator's raw output in a part that runs (R131). -/
theorem State.rawTo_running (h : s.phase = .running) (f : Filtered) (raw : Bool) :
    s.rawTo f raw = f.rawTo s.factory.attachFilter raw := if_pos h

/-- A comparator's raw output before the completion of the power-on load (R144). -/
theorem State.rawTo_closed (h : s.phase ≠ .running) (f : Filtered) (raw : Bool) :
    s.rawTo f raw = f.rawOnly raw := if_neg h

theorem execAttachFilterExpiry_early {k : Comparator} (h : (s.input.filter k).timer ≠ some 0) :
    execAttachFilterExpiry k s = .next s :=
  if_neg fun up => h ((timeUp_iff _).1 up)

theorem execAttachFilterExpiry_due {k : Comparator} (h : (s.input.filter k).timer = some 0) :
    execAttachFilterExpiry k s = .next ((s.setInput (s.input.recordEdge k)).moveInput
      (edgeTable (s.input.recordEdge k).present.level (s.input.recordEdge k).ov.level k
        (s.input.recordEdge k).state)) := by
  rw [← stateAfterEdge_eq]
  exact if_pos ((timeUp_iff _).2 h)

/-! ### Qualification and suspend reasons (R134 to R136, R142) -/

theorem execQualificationExpiry_early (h : s.input.qual ≠ some 0) : execQualificationExpiry s = .next s :=
  if_neg fun ⟨_, up⟩ => h ((timeUp_iff _).1 up)

theorem execQualificationExpiry_due (hs : s.input.state = .qualifying) (hq : s.input.qual = some 0) :
    execQualificationExpiry s = .next (s.moveInput
      (if s.input.reasons.host ∨ s.input.reasons.die then .suspended else .active)) := by
  rw [← ite_congr (propext s.input.reasons.any_iff) (fun _ => rfl) (fun _ => rfl)]
  exact if_pos ⟨hs, (timeUp_iff _).2 hq⟩

theorem execDieSuspendReasonChange_waiting {d : Bool} {rest : List Bool} (h : s.handed.die = d :: rest) :
    execDieSuspendReasonChange s
      = .next ((s.setHanded { s.handed with die := rest }).setReasons { s.input.reasons with die := d }) := by
  simp only [execDieSuspendReasonChange, h]
  rfl

/-- INPUT-SUSPEND SUSPEND and RESUME in a part that runs (R142). -/
theorem request_hostSuspend (h : s.phase = .running) (tag : Byte) (present : Bool) :
    ∃ u, s.request .inputSuspend tag (State.hostSuspend present)
        = .next (Answer.reply ⟨u, .ok, u.inputBody⟩ 0x11 tag)
      ∧ ReasonsTook s { s.input.reasons with host := present } u :=
  ⟨s.setReasons _, s.request_running _ _ _ h, s.setReasons_took _⟩

/-! ### The sag derate and INPUT-LIMIT (R140, R141) -/

/-- The input is ACTIVE and VBUS usable in a set (R141). -/
theorem sag_iff (m : MeasSet) :
    (s.inputActive && usable m.age.vbus) = true ↔ s.input.state = .active ∧ m.age.vbus ≤ 2 := by
  rw [Bool.and_eq_true, usable_iff]
  exact and_congr_left' beq_iff_eq

/-- A set that waits is taken, and steps SD in ACTIVE with VBUS usable (R141). -/
theorem execInputSagDerateStep_waiting {m : MeasSet} {rest : List MeasSet} (h : s.handed.inputSet = m :: rest) :
    execInputSagDerateStep s = .next { s with
      handed := { s.handed with inputSet := rest }
      input := { s.input with
        sd := if s.input.state = .active ∧ m.age.vbus ≤ 2 then
            sagStep s.input.vfloor s.input.sd m.value.vbus
          else s.input.sd } } := by
  simp only [execInputSagDerateStep, h]
  by_cases hsag : s.input.state = .active ∧ m.age.vbus ≤ 2
  · rw [if_pos ((sag_iff m).2 hsag), if_pos hsag]
    rfl
  · rw [if_neg (mt (sag_iff m).1 hsag), if_neg hsag]
    rfl

/-- An argument is adjusted where it is not 0 and the setting after it is another value (R140). -/
theorem argAdjusted_iff (f : Field) (old : Int) (arg : Word) :
    argAdjusted f arg = true ↔ arg ≠ 0 ∧ settingAfter f old arg ≠ arg.toNat := by
  rw [argAdjusted, Bool.and_eq_true, bne_iff_ne, bne_iff_ne]
  refine and_congr_right fun h => ?_
  rw [settingAfter, if_neg h]

/-- INPUT-LIMIT carried out, with CLAMPED where either argument is adjusted (R140). -/
theorem State.inputLimit_eq (s : State) (ilim vfloor : Word) :
    s.inputLimit ilim vfloor =
      let i := settingAfter ilimField s.input.ilim ilim
      let v := settingAfter vfloorField s.input.vfloor vfloor
      let u := s.setInput { s.input with ilim := i, vfloor := v }
      ⟨u, if ilim ≠ 0 ∧ i ≠ ilim.toNat ∨ vfloor ≠ 0 ∧ v ≠ vfloor.toNat then .clamped else .ok,
        u.inputBody⟩ := by
  have adjusted : (argAdjusted ilimField ilim || argAdjusted vfloorField vfloor) = true
      ↔ ilim ≠ 0 ∧ settingAfter ilimField s.input.ilim ilim ≠ ilim.toNat
        ∨ vfloor ≠ 0 ∧ settingAfter vfloorField s.input.vfloor vfloor ≠ vfloor.toNat := by
    rw [Bool.or_eq_true, argAdjusted_iff ilimField s.input.ilim, argAdjusted_iff vfloorField s.input.vfloor]
  dsimp only
  rw [← ite_congr (propext adjusted) (fun _ => rfl) (fun _ => rfl)]
  rfl

/-- What the input switch does in every state (R132). -/
theorem State.inputSwitch_eq (s : State) :
    s.inputSwitch = if s.input.state = .active then .held s.input.ilim else .blocked := by
  split
  · exact s.input.switch_active ‹_›
  · exact s.input.switch_off ‹_›

end

/-- Settles O30: the raw outputs by the part's phase, and an edge by the table of R133. -/
theorem connectorEdgesMoveTheInputStage : Obligations.ConnectorEdgesMoveTheInputStage := by
  unfold Obligations.ConnectorEdgesMoveTheInputStage
  constructor
  · intro s vbus
    refine ⟨fun hrun => ?_, fun hclosed => ?_⟩
    · show execComparatorRawChange vbus s = _
      unfold execComparatorRawChange
      rw [s.rawTo_running hrun, s.rawTo_running hrun]
      rfl
    · show execComparatorRawChange vbus s = _
      unfold execComparatorRawChange
      rw [s.rawTo_closed hclosed, s.rawTo_closed hclosed]
      rfl
  · intro s k
    cases k with
    | present =>
      exact ⟨execAttachFilterExpiry_early (k := .present), fun up =>
        ⟨_, execAttachFilterExpiry_due (k := .present) up,
          (s.setInput (s.input.recordEdge .present)).moveInput_took _⟩⟩
    | ov =>
      exact ⟨execAttachFilterExpiry_early (k := .ov), fun up =>
        ⟨_, execAttachFilterExpiry_due (k := .ov) up,
          (s.setInput (s.input.recordEdge .ov)).moveInput_took _⟩⟩

/-- Settles O31: QUALIFYING is left for ACTIVE or SUSPENDED, and the state follows every change of the suspend
reasons. -/
theorem qualificationAndReasonsMoveTheInput : Obligations.QualificationAndReasonsMoveTheInput := by
  unfold Obligations.QualificationAndReasonsMoveTheInput
  refine ⟨fun s => execQualificationExpiry_early, fun s hs hq => ?_,
    fun s d rest hd => ⟨_, execDieSuspendReasonChange_waiting hd, State.setReasons_took _ _⟩,
    fun s tag hrun => ⟨request_hostSuspend hrun tag true, request_hostSuspend hrun tag false⟩⟩
  refine ⟨_, execQualificationExpiry_due hs hq, s.moveInput_moved _ ?_⟩
  rw [hs]
  split <;> decide

/-- Settles O32: SD on a set, the settings after INPUT-LIMIT, and the input switch in every state. -/
theorem sagDerateAndInputLimitSetTheInput : Obligations.SagDerateAndInputLimitSetTheInput := by
  unfold Obligations.SagDerateAndInputLimitSetTheInput
  refine ⟨fun s m rest => execInputSagDerateStep_waiting, fun s tag ilim vfloor hrun => ?_,
    State.inputSwitch_eq⟩
  refine ⟨?_, State.inputSwitch_eq _⟩
  show s.request .inputLimit tag (State.inputLimit ilim vfloor) = _
  rw [s.request_running _ _ _ hrun, s.inputLimit_eq]
  rfl

end Sys2Proof.Machine
end

section
/-! PROOFS. The commands on the hinge monitor: a raw level, a filter's expiry, the end of the start-up sample and
the settle timer's expiry (R147 to R155). -/

namespace Sys2Proof.Machine

/-! ### The position and what follows from it (R148, R149, R153, R154) -/

namespace Hinge
variable (h : Hinge)

/-- The position, read off one level and then the other (R148). -/
theorem position_eq : h.position =
    if h.foldA.level then if h.foldB.level then .conflict else .closed
    else if h.foldB.level then .opened else .moving := by
  unfold position
  cases h.foldA.level <;> cases h.foldB.level <;> rfl

/-- The hinge stands at a stop exactly while its levels differ: only there the settle timer starts (or a time of 0
settles at once), and only where both levels are set a conflict is counted (R149, R153). -/
theorem onPosition_eq (settle : Nat) : h.onPosition settle =
    { h with
      settled := (h.foldA.level != h.foldB.level) && settle == 0
      settle := if (h.foldA.level != h.foldB.level) = true ∧ settle ≠ 0 then some settle else none
      conflicts := if h.foldA.level = true ∧ h.foldB.level = true then min 255 (h.conflicts + 1)
        else h.conflicts } := by
  unfold onPosition
  rw [position_eq]
  cases hA : h.foldA.level with
  | false =>
    cases hB : h.foldB.level with
    | false => simp
    | true => simp [ite_not]
  | true =>
    cases hB : h.foldB.level with
    | false => simp [ite_not]
    | true => simp [countUpTo_eq_min]

/-- The start-up timer put back as it is. -/
theorem with_own_startup {h : Hinge} {t : Option Nat} (ht : h.startup = t) :
    { h with startup := t } = h := by
  subst ht
  rfl

end Hinge

/-- The HINGE notice, with the position read off the levels (R154). -/
theorem hingePayload_eq (h : Hinge) : hingePayload h =
    .hinge (if h.foldA.level then if h.foldB.level then .conflict else .closed
      else if h.foldB.level then .opened else .moving)
      h.settled h.foldA.level h.foldB.level h.conflicts := by
  rw [hingePayload, h.position_eq]

/-! ### The commands, by their guards (R147, R149, R151, R155) -/

section
variable {s : State} {f : FoldSense} {level : Bool}

/-- A raw level that changes and that the filter follows (R147). -/
theorem Filtered.rawTo_changed {x : Filtered} (h : level ≠ x.raw) (time : Nat) :
    x.rawTo time level = ⟨level, x.level, if level = x.level then none else some time⟩ := if_neg h

theorem execFoldRawChange_same (h : level = (s.hinge.filter f).raw) :
    execFoldRawChange f level s = .next s := if_pos h

/-- A raw level that changes before the completion of the power-on load (R155). -/
theorem execFoldRawChange_closed (h : level ≠ (s.hinge.filter f).raw) (hclosed : s.phase ≠ .running) :
    execFoldRawChange f level s
      = .next (s.setHinge (s.hinge.setFilter f ((s.hinge.filter f).rawOnly level))) :=
  (if_neg h).trans (if_neg hclosed)

/-- A raw level that changes during the start-up sample (R155). -/
theorem execFoldRawChange_sampling (h : level ≠ (s.hinge.filter f).raw) (hrun : s.phase = .running)
    (hsample : s.hinge.startup.isSome) :
    execFoldRawChange f level s = .next (s.setHinge
      { s.hinge.setFilter f ((s.hinge.filter f).rawOnly level) with startup := some s.hingeFilterTime }) := by
  obtain ⟨n, hn⟩ := Option.isSome_iff_exists.1 hsample
  simp only [execFoldRawChange, if_neg h, if_pos hrun, hn]

/-- A raw level that changes while the filters run (R147). -/
theorem execFoldRawChange_filtering (h : level ≠ (s.hinge.filter f).raw) (hrun : s.phase = .running)
    (hsample : s.hinge.startup = none) :
    execFoldRawChange f level s = .next (s.setHinge
      { s.hinge.setFilter f ⟨level, (s.hinge.filter f).level,
          if level = (s.hinge.filter f).level then none else some s.hingeFilterTime⟩
        with startup := none }) := by
  rw [Hinge.with_own_startup ((Hinge.setFilter_startup ..).trans hsample)]
  simp only [execFoldRawChange, if_neg h, if_pos hrun, hsample, Filtered.rawTo_changed h]

theorem execHingeFilterExpiry_early (h : (s.hinge.filter f).timer ≠ some 0) :
    execHingeFilterExpiry f s = .next s :=
  if_neg fun up => h ((timeUp_iff _).1 up)

/-- The monitor after a filter's expiry, with its notice; a hinge that was settled and no longer is is handed on
(R147, R151, R154). -/
theorem execHingeFilterExpiry_due {new : Hinge} (h : (s.hinge.filter f).timer = some 0)
    (hnew : (s.hinge.setFilter f (s.hinge.filter f).expire).onPosition s.settleTime = new) :
    execHingeFilterExpiry f s = .next { s with
      hinge := new
      link := s.link.notify s.alloc.frame.number (hingePayload new)
      handed := if s.hinge.settled = true ∧ new.settled = false then s.handed.hingeUnsettled
        else s.handed } := by
  simp only [execHingeFilterExpiry, if_pos ((timeUp_iff _).2 h), hnew, Bool.and_eq_true, Bool.not_eq_true']
  split
  · rfl
  · rfl

theorem execStartupSampleExpiry_early (h : s.hinge.startup ≠ some 0) : execStartupSampleExpiry s = .next s :=
  if_neg fun up => h ((timeUp_iff _).1 up)

theorem execStartupSampleExpiry_due (h : s.hinge.startup = some 0) :
    execStartupSampleExpiry s = .next (s.setHinge (Hinge.onPosition
      { s.hinge with foldA := s.hinge.foldA.expire, foldB := s.hinge.foldB.expire, startup := none }
      s.settleTime)) :=
  if_pos ((timeUp_iff _).2 h)

theorem execSettleTimerExpiry_early (h : s.hinge.settle ≠ some 0) : execSettleTimerExpiry s = .next s :=
  if_neg fun up => h ((timeUp_iff _).1 up)

theorem execSettleTimerExpiry_due (h : s.hinge.settle = some 0) :
    execSettleTimerExpiry s = .next ((s.setHinge { s.hinge with settled := true, settle := none }).notify
      (hingePayload { s.hinge with settled := true, settle := none })) :=
  if_pos ((timeUp_iff _).2 h)

end

/-- Settles O33: a raw level by the part's phase and the start-up sample, and each expiry by its timer, the monitor
after it read off the levels. -/
theorem hingeFollowsTheFoldInputs : Obligations.HingeFollowsTheFoldInputs := by
  unfold Obligations.HingeFollowsTheFoldInputs
  refine ⟨fun s f level => ?_, fun s f _ up => ?_, fun s =>
    ⟨⟨execHingeFilterExpiry_early (f := .foldA), execHingeFilterExpiry_early (f := .foldB)⟩,
      execStartupSampleExpiry_early, execSettleTimerExpiry_early⟩,
    fun s _ up => ?_, fun s up => ?_⟩
  · cases f with
    | foldA =>
      exact ⟨execFoldRawChange_same (f := .foldA), execFoldRawChange_closed (f := .foldA),
        execFoldRawChange_sampling (f := .foldA), execFoldRawChange_filtering (f := .foldA)⟩
    | foldB =>
      exact ⟨execFoldRawChange_same (f := .foldB), execFoldRawChange_closed (f := .foldB),
        execFoldRawChange_sampling (f := .foldB), execFoldRawChange_filtering (f := .foldB)⟩
  · cases f with
    | foldA =>
      refine (execHingeFilterExpiry_due (f := .foldA) up (Hinge.onPosition_eq _ _)).trans ?_
      rw [hingePayload_eq]
      rfl
    | foldB =>
      refine (execHingeFilterExpiry_due (f := .foldB) up (Hinge.onPosition_eq _ _)).trans ?_
      rw [hingePayload_eq]
      rfl
  · refine (execStartupSampleExpiry_due up).trans ?_
    rw [Hinge.onPosition_eq]
    rfl
  · refine (execSettleTimerExpiry_due up).trans ?_
    rw [hingePayload_eq]
    rfl

end Sys2Proof.Machine
end

section
/-! PROOFS. The fault records: what a set, a retry, a FAULT-CLEAR and a change of class make of one record, and that
every one of them keeps its fields tied together (R158 to R167, R172). -/

namespace Sys2Proof.Machine

/-! ### What a set says of a condition (R156, R159, R160) -/

/-- A condition after a verdict. -/
def Verdict.after (v : Verdict) (old : Bool) : Bool :=
  match v with
  | .sets => true
  | .clears => false
  | .keeps => old

theorem verdictOf_after (ok sets clears old : Bool) :
    (verdictOf ok sets clears).after old
      = if ok then if sets then true else if clears then false else old else old := by
  unfold verdictOf
  cases ok with
  | false => rfl
  | true =>
    cases sets with
    | true => rfl
    | false => cases clears <;> rfl

/-- A kind that reads one channel keeps its condition while the channel is unusable (R159). -/
theorem verdictOf_usable_after (age : Nat) (sets clears : Prop) [Decidable sets] [Decidable clears]
    (old : Bool) :
    (verdictOf (usable age) (decide sets) (decide clears)).after old
      = if 2 < age then old else if sets then true else if clears then false else old := by
  rw [verdictOf_after]
  by_cases h : 2 < age
  · rw [if_pos h, if_neg (mt (usable_iff age).1 (by omega))]
  · rw [if_neg h, if_pos ((usable_iff age).2 (by omega))]
    simp only [decide_eq_true_eq]

theorem ntcVerdict_after (age : Nat) (old : Bool) :
    (ntcVerdict (usable age)).after old = decide (2 < age) := by
  unfold ntcVerdict
  by_cases h : 2 < age
  · rw [if_neg (mt (usable_iff age).1 (by omega)), decide_eq_true h]
    rfl
  · rw [if_pos ((usable_iff age).2 (by omega)), decide_eq_false h]
    rfl

theorem senseVerdict_after (m : MeasSet) (old : Bool) :
    (senseVerdict m).after old =
      if 2 < m.age.vcf then true
      else if 2 < m.age.vfn then old
      else if 500 < (m.value.vfn - m.value.vcf).natAbs then true
      else if (m.value.vfn - m.value.vcf).natAbs ≤ 300 then false
      else old := by
  have stale (age : Nat) : (!usable age) = true ↔ 2 < age := by
    rw [Bool.not_eq_true', ← Bool.not_eq_true, usable_iff, Nat.not_le]
  have wide (gap : Int) : 500 < gap ∨ gap < -500 ↔ 500 < gap.natAbs := by omega
  have narrow (gap : Int) : -300 ≤ gap ∧ gap ≤ 300 ↔ gap.natAbs ≤ 300 := by omega
  simp only [senseVerdict, stale, wide, narrow, apply_ite (Verdict.after · old)]
  rfl

/-- Every kind's condition follows the thresholds in force. -/
theorem conditionAfter_eq (w : Words) (m : MeasSet) (old : Bool) (k : FaultKind) :
    conditionAfter w m old k = (setVerdict w m k).after old := by
  cases k with
  | nOv | fOv | nUv | fUv | nOt | fOt | dieOt | sysUv => exact (verdictOf_usable_after ..).symm
  | nOc | fOc => rfl
  | nNtc | fNtc => exact (ntcVerdict_after ..).symm
  | fSense => exact (senseVerdict_after m old).symm

/-! ### One record (R158, R162 to R167, R172) -/

namespace FaultRecord
variable (r : FaultRecord) (cls : Int) (frame : Nat)

theorem onVerdict_active (v : Verdict) : (r.onVerdict cls frame v).active = v.after r.active := by
  cases v with
  | keeps => rfl
  | sets => cases h : r.active <;> simp [onVerdict, Verdict.after, setTransition, judged, h]
  | clears => cases h : r.active <;> simp [onVerdict, Verdict.after, clearTransition, judged, h]

/-- A verdict is a set transition where the condition becomes active. -/
theorem rises_iff (v : Verdict) :
    r.rises v = true ↔ r.active = false ∧ (r.onVerdict cls frame v).active = true := by
  rw [onVerdict_active]
  cases v <;> cases h : r.active <;> simp [rises, Verdict.after, h]

/-- The set transition is the one occurrence that a verdict can be (R162). -/
theorem onVerdict_rises (v : Verdict) (h : r.rises v = true) :
    r.onVerdict cls frame v = ⟨true, true, judge cls true true, countUpTo 255 r.count, frame⟩ := by
  cases v with
  | sets =>
    cases ha : r.active with
    | true => simp [rises, ha] at h
    | false => simp [onVerdict, setTransition, judged, ha]
  | clears | keeps => simp [rises] at h

/-- Any other verdict keeps the latch, the count and the last frame (R164). -/
theorem onVerdict_quiet (v : Verdict) (h : r.rises v = false) :
    (r.onVerdict cls frame v).latched = r.latched ∧ (r.onVerdict cls frame v).count = r.count
      ∧ (r.onVerdict cls frame v).lastFrame = r.lastFrame := by
  cases v with
  | keeps => exact ⟨rfl, rfl, rfl⟩
  | sets =>
    cases ha : r.active with
    | true => simp [onVerdict, ha]
    | false => simp [rises, ha] at h
  | clears => cases ha : r.active <;> simp [onVerdict, clearTransition, judged, ha]

end FaultRecord

section
variable {w : Words} {k : FaultKind} {r : FaultRecord}

/-- A record judged under its kind's class is tied, whatever its in-force flag was. -/
theorem faultOk_judged (latched : r.active = true → r.latched = true) (count : r.count ≤ 255) :
    FaultOk w k (r.judged (Protect.classOf w k.num)) := ⟨latched, rfl, count⟩

theorem countUpTo_le (bound n : Nat) : countUpTo bound n ≤ bound := by
  rw [countUpTo_eq_min]
  exact Nat.min_le_left ..

theorem faultOk_setTransition (frame : Nat) :
    FaultOk w k (r.setTransition (Protect.classOf w k.num) frame) :=
  faultOk_judged (fun _ => rfl) (countUpTo_le ..)

theorem FaultOk.clearTransition (ok : FaultOk w k r) :
    FaultOk w k (r.clearTransition (Protect.classOf w k.num)) := by
  obtain ⟨-, -, count⟩ := ok
  exact faultOk_judged nofun count

theorem FaultOk.onVerdict (ok : FaultOk w k r) (frame : Nat) (v : Verdict) :
    FaultOk w k (r.onVerdict (Protect.classOf w k.num) frame v) := by
  cases v with
  | keeps => exact ok
  | sets =>
    unfold FaultRecord.onVerdict
    dsimp only
    split
    · exact ok
    · exact faultOk_setTransition frame
  | clears =>
    unfold FaultRecord.onVerdict
    dsimp only
    split
    · exact ok.clearTransition
    · exact ok

theorem FaultOk.trip (ok : FaultOk w k r) (frame : Nat) :
    FaultOk w k (r.trip (Protect.classOf w k.num) frame) := by
  unfold FaultRecord.trip
  split
  · obtain ⟨latched, inForce, -⟩ := ok
    exact ⟨latched, inForce, countUpTo_le ..⟩
  · exact faultOk_setTransition frame

/-- A latch is cleared while the condition is inactive alone (R172). -/
theorem FaultOk.clearLatch (ok : FaultOk w k r) : FaultOk w k (r.clearLatch (Protect.classOf w k.num)) := by
  unfold FaultRecord.clearLatch
  split
  · exact ok
  · rename_i inactive
    obtain ⟨-, -, count⟩ := ok
    exact faultOk_judged (fun active => absurd active inactive) count

/-- A class that changes judges the in-force flag again, and one that stays keeps it (R165). -/
theorem FaultOk.reclassed (ok : FaultOk w k r) (new : Words) :
    FaultOk new k (if Protect.classOf w k.num = Protect.classOf new k.num then r
      else r.judged (Protect.classOf new k.num)) := by
  obtain ⟨latched, inForce, count⟩ := ok
  split
  · rename_i same
    exact ⟨latched, same ▸ inForce, count⟩
  · exact faultOk_judged latched count

end

end Sys2Proof.Machine
end

section
/-! PROOFS. The part of the state that protection's actions hang on: the fault records under their classes, and what
stands at, or waits for, the paths and the input stage; what a change of the records does to it, and the operations
that leave it alone (R114, R158, R161 to R172). -/

namespace Sys2Proof.Machine

/-! ### Protection and its receivers -/

/-- The fault records with the words of PROTECT; the restriction of each path and the DIE reason, with what waits
to change them. -/
structure FaultView where
  words : Words
  record : PerFault FaultRecord
  restriction : PerCell Restriction
  blocks : PerCell (List Blocks)
  die : Bool
  dieChanges : List Bool

/-- The part of a state that protection's actions hang on. -/
def State.faultView (s : State) : FaultView where
  words := s.tables.protect
  record := s.prot.record
  restriction := s.path.map (·.restriction)
  blocks := s.handed.pathBlocks
  die := s.input.reasons.die
  dieChanges := s.handed.die

namespace FaultView

/-- Every fault record is tied together. -/
def Tied (g : FaultView) : Prop := ∀ k, FaultOk g.words k (g.record.get k)

/-- The restriction that a path has, or comes to have, once it has taken what waits for it. -/
def restrictionDue (g : FaultView) (c : Cell) : Restriction :=
  ((g.blocks.get c).getLast?.map Blocks.restriction).getD (g.restriction.get c)

/-- The blocks in force are due at each path, and DIE at the input stage. -/
structure Reaches (g : FaultView) : Prop where
  path : ∀ c, g.restrictionDue c = (blocksOn g.record c).restriction
  die : g.dieChanges.getLast?.getD g.die = g.record.dieOt.inForce

/-- The records are tied together and their actions reach their receivers. -/
structure Sound (g : FaultView) : Prop where
  tied : g.Tied
  reaches : g.Reaches

end FaultView

theorem State.faultView_sound_iff (s : State) : s.faultView.Sound ↔ FaultsOk s ∧ ActionsReach s := by
  constructor
  · rintro ⟨tied, path, die⟩
    exact ⟨fun k _ => tied k, path .near, path .far, die⟩
  · rintro ⟨tied, near, far, die⟩
    refine ⟨fun k => tied k k.mem_all, fun c => ?_, die⟩
    cases c with
    | near => exact near
    | far => exact far

/-! ### A change of the fault records (R161, R169, R170) -/

/-- The blocks in force on a path are those of its kinds alone (R169). -/
theorem blocksOn_congr {p q : PerFault FaultRecord} {c : Cell}
    (h : ∀ k ∈ pathKinds c, (p.get k).inForce = (q.get k).inForce) : blocksOn p c = blocksOn q c := by
  cases c with
  | near =>
    simp only [pathKinds, List.forall_mem_cons, PerFault.get] at h
    obtain ⟨ov, uv, oc, ot, ntc, -⟩ := h
    simp only [blocksOn, ov, uv, oc, ot, ntc]
  | far =>
    simp only [pathKinds, List.forall_mem_cons, PerFault.get] at h
    obtain ⟨ov, uv, oc, ot, ntc, sense, -⟩ := h
    simp only [blocksOn, ov, uv, oc, ot, ntc, sense]

namespace State
variable (s : State)

@[simp] theorem faultView_restriction_get (c : Cell) :
    s.faultView.restriction.get c = (s.path.get c).restriction := PerCell.get_map ..

/-- What waits for a path after a change of the records ends with the blocks in force, where one of the path's
kinds has come into force or lifted. -/
theorem setFaults_blocks (new : PerFault FaultRecord) (c : Cell) :
    (s.setFaults new).handed.pathBlocks.get c = s.handed.pathBlocks.get c
      ++ if ∃ k ∈ pathKinds c, (s.prot.record.get k).inForce ≠ (new.get k).inForce then [blocksOn new c]
        else [] := by
  have handed : (s.setFaults new).handed = _ := s.setFaults_handed new
  rw [handed]
  cases c <;> rfl

theorem setFaults_die (new : PerFault FaultRecord) :
    (s.setFaults new).handed.die = s.handed.die
      ++ if s.prot.record.dieOt.inForce ≠ new.dieOt.inForce then [new.dieOt.inForce] else [] := by
  rw [setFaults_eq]
  by_cases h : s.prot.record.dieOt.inForce = new.dieOt.inForce <;> simp [PerFault.get, h]

/-- However the records change, their actions still reach their receivers: what changed is handed on. -/
theorem setFaults_reaches (new : PerFault FaultRecord) (ok : s.faultView.Reaches) :
    (s.setFaults new).faultView.Reaches := by
  obtain ⟨path, die⟩ := ok
  refine ⟨fun c => ?_, ?_⟩
  · show ((s.setFaults new).handed.pathBlocks.get c |>.getLast?.map Blocks.restriction).getD
        (s.faultView.restriction.get c) = (blocksOn new c).restriction
    rw [setFaults_blocks]
    split
    · rw [List.getLast?_concat]
      rfl
    · rename_i same
      rw [List.append_nil, ← blocksOn_congr fun k hk => Classical.not_not.1 fun ne => same ⟨k, hk, ne⟩]
      exact path c
  · show (s.setFaults new).handed.die.getLast?.getD s.input.reasons.die = new.dieOt.inForce
    rw [setFaults_die]
    split
    · rw [List.getLast?_concat]
      rfl
    · rename_i same
      rw [List.append_nil, ← Classical.not_not.1 same]
      exact die

/-- A change to records that are tied is sound. -/
theorem setFaults_sound {new : PerFault FaultRecord} (tied : ∀ k, FaultOk s.tables.protect k (new.get k))
    (ok : s.faultView.Reaches) : (s.setFaults new).faultView.Sound := ⟨tied, s.setFaults_reaches new ok⟩

/-- One record changes, and the others stay. -/
theorem setFaults_set_sound (k : FaultKind) {r : FaultRecord} (hr : FaultOk s.tables.protect k r)
    (ok : s.faultView.Sound) : (s.setFaults (s.prot.record.set k r)).faultView.Sound := by
  obtain ⟨tied, reaches⟩ := ok
  refine s.setFaults_sound (fun j => ?_) reaches
  by_cases h : j = k
  · rw [h, PerFault.get_set_same]
    exact hr
  · rw [PerFault.get_set_ne _ _ h]
    exact tied j

@[simp] theorem notifyFaults_faultView (ks : List FaultKind) : (s.notifyFaults ks).faultView = s.faultView := by
  rw [notifyFaults_eq]
  rfl

/-- Protection's reaction to a set (R161). -/
theorem protectOn_sound (m : MeasSet) (ok : s.faultView.Sound) : (s.protectOn m).faultView.Sound := by
  obtain ⟨tied, reaches⟩ := ok
  have moved := s.setFaults_sound (new := recordsAfterSet s.prot.record s.tables.protect s.alloc.frame.number m)
    (fun k => by
      rw [recordsAfterSet, PerFault.get_ofKind]
      exact FaultOk.onVerdict (tied k) _ _) reaches
  rw [← notifyFaults_faultView _ (risingKinds s.prot.record s.tables.protect m)] at moved
  unfold protectOn
  dsimp only
  split <;> exact moved

/-- A trip of a path (R166). -/
theorem takeTrip_sound (c : Cell) (ok : s.faultView.Sound) : (s.takeTrip c).faultView.Sound :=
  s.setFaults_set_sound (.oc c) (FaultOk.trip (ok.tied (.oc c)) s.alloc.frame.number) ok

/-- The words of PROTECT come into force (R165). -/
theorem setProtectWords_sound (new : Words) (ok : s.faultView.Sound) :
    (s.setProtectWords new).faultView.Sound := by
  obtain ⟨tied, path, die⟩ := ok
  refine setFaults_sound _ (fun k => ?_) ⟨path, die⟩
  rw [PerFault.get_ofKind]
  exact FaultOk.reclassed (tied k) new

/-- FAULT-CLEAR (R172). -/
theorem faultClear_sound (mask : Word) (ok : s.faultView.Sound) :
    (s.faultClear mask).state.faultView.Sound := by
  unfold faultClear
  split
  · refine s.setFaults_sound (fun k => ?_) ok.reaches
    rw [recordsAfterClear, PerFault.get_ofKind]
    split
    · exact FaultOk.clearLatch (ok.tied k)
    · exact ok.tied k
  · exact ok

end State

/-! ### What the receivers take (R114, R136, R170) -/

namespace FaultView.Sound
variable {g : FaultView}

/-- A path takes the oldest blocks that wait for it (R114). -/
theorem takesBlocks (ok : g.Sound) {c : Cell} {b : Blocks} {rest : List Blocks}
    (h : g.blocks.get c = b :: rest) :
    Sound { g with restriction := g.restriction.set c b.restriction, blocks := g.blocks.set c rest } := by
  obtain ⟨tied, path, die⟩ := ok
  refine ⟨tied, fun d => ?_, die⟩
  rw [← path d]
  unfold restrictionDue
  by_cases hd : d = c
  · subst hd
    rw [PerCell.get_set_same, PerCell.get_set_same, h, List.getLast?_cons]
    cases rest.getLast? <;> rfl
  · simp only [PerCell.get_set, if_neg hd]

/-- The input stage takes the oldest change of DIE that waits for it (R170). -/
theorem takesDie (ok : g.Sound) {d : Bool} {rest : List Bool} (h : g.dieChanges = d :: rest) :
    Sound { g with die := d, dieChanges := rest } := by
  obtain ⟨tied, path, die⟩ := ok
  refine ⟨tied, path, ?_⟩
  rw [h, List.getLast?_cons] at die
  exact die

end FaultView.Sound

/-! ### The operations that leave it alone -/

namespace State
variable (s : State)

@[simp] theorem setFresh_faultView (v : Nat) : (s.setFresh v).faultView = s.faultView := rfl
@[simp] theorem setSeenOf_faultView (c : Cell) (v : SeqSeen) : (s.setSeenOf c v).faultView = s.faultView := rfl
@[simp] theorem dropSeqSet_faultView (c : Cell) (rest : List MeasSet) :
    (s.dropSeqSet c rest).faultView = s.faultView := rfl
@[simp] theorem dropSeqSignal_faultView (c : Cell) (rest : List InputSignal) :
    (s.dropSeqSignal c rest).faultView = s.faultView := rfl
@[simp] theorem dropPathSignal_faultView (c : Cell) (rest : List InputSignal) :
    (s.dropPathSignal c rest).faultView = s.faultView := rfl
@[simp] theorem reopenQueue_faultView : s.reopenQueue.faultView = s.faultView := rfl
@[simp] theorem discardPending_faultView : s.discardPending.faultView = s.faultView := rfl

@[simp] theorem setLink_faultView (v : Link) : (s.setLink v).faultView = s.faultView := rfl
@[simp] theorem notify_faultView (p : Payload) : (s.notify p).faultView = s.faultView := rfl

/-- What is handed on changes, and what waits from protection stays. -/
@[simp] theorem setHanded_faultView {h : Handed} (blocks : h.pathBlocks = s.handed.pathBlocks)
    (die : h.die = s.handed.die) : (s.setHanded h).faultView = s.faultView := by
  simp only [faultView, setHanded_handed, blocks, die]
  rfl

/-- An edge of a comparator leaves the suspend reasons. -/
@[simp] theorem recordEdge_faultView (k : Comparator) :
    (s.setInput (s.input.recordEdge k)).faultView = s.faultView := by cases k <;> rfl

@[simp] theorem setPath_faultView (c : Cell) (p : PathRecord) :
    (s.setPath c p).faultView
      = { s.faultView with restriction := s.faultView.restriction.set c p.restriction } := by
  simp [faultView, PerCell.map_set]

/-- A path's record changes with its restriction kept. -/
theorem setPath_faultView_same (c : Cell) {p : PathRecord} (h : p.restriction = (s.path.get c).restriction) :
    (s.setPath c p).faultView = s.faultView := by
  rw [setPath_faultView, h, ← faultView_restriction_get, PerCell.set_get]

@[simp] theorem recompute_faultView (c : Cell) : (s.recompute c).faultView = s.faultView :=
  s.setPath_faultView_same c (PathRecord.take_restriction ..)

@[simp] theorem orderPath_faultView (c : Cell) (o : Order) : (s.orderPath c o).faultView = s.faultView :=
  (recompute_faultView _ c).trans (s.setPath_faultView_same c rfl)

@[simp] theorem endTransferOnEvent_faultView (cause : EndCause) :
    (s.endTransferOnEvent cause).faultView = s.faultView := by
  unfold endTransferOnEvent receiverDiode
  split
  · split
    · exact orderPath_faultView _ _ .diode
    · rfl
  · rfl

@[simp] theorem moveInput_faultView (new : InputState) : (s.moveInput new).faultView = s.faultView := by
  by_cases h : new = s.input.state
  · rw [h, moveInput_same]
  · rw [moveInput_eq s new h]
    split
    · rfl
    · split <;> rfl

/-- A change of the suspend reasons changes the DIE reason to the one given. -/
@[simp] theorem setReasons_faultView (new : SuspendReasons) :
    (s.setReasons new).faultView = { s.faultView with die := new.die } := by
  rw [setReasons_eq]
  dsimp only
  split
  · exact moveInput_faultView _ _
  · split
    · exact moveInput_faultView _ _
    · rfl

@[simp] theorem updateSeq_faultView (c : Cell) (new : SeqRecord) :
    (s.updateSeq c new).faultView = s.faultView := by
  rw [updateSeq_eq]
  rfl

@[simp] theorem takeEventSeq_faultView (c : Cell) (new : SeqRecord) :
    (s.takeEventSeq c new).faultView = s.faultView := updateSeq_faultView _ c new

@[simp] theorem handleSet_faultView (c : Cell) (m : MeasSet) :
    (s.handleSet c m).faultView = s.faultView := by
  rw [handleSet_frame]
  rfl

@[simp] theorem expireNow_faultView (c : Cell) : (s.expireNow c).faultView = s.faultView :=
  s.updateSeq_faultView c _

@[simp] theorem setCeiling_faultView (v : Int) (c : Cell) : (s.setCeiling v c).faultView = s.faultView :=
  s.updateSeq_faultView c _

@[simp] theorem takeFrame_faultView (m : MeasSet) : (s.takeFrame m).faultView = s.faultView := by
  rw [takeFrame_frame]
  rfl

@[simp] theorem setInhibitSet_faultView (c : Cell) (new : Byte) :
    (s.setInhibitSet c new).faultView = s.faultView := by
  rw [setInhibitSet_frame]
  rfl

@[simp] theorem setCopies_faultView (r : RecordId) (v : Copies) :
    (s.setCopies r v).faultView = s.faultView := by
  cases r <;> rfl

@[simp] theorem promote_faultView (r : RecordId) (k : Copies) (source : ProfileSource) :
    (s.promote r k source).faultView = s.faultView := by
  unfold promote
  dsimp only
  split <;> cases r <;> rfl

/-- What leaves the part as it is done to a cell leaves it as it is done to each cell of a target. -/
theorem forEach_faultView (cells : List Cell) {f : Cell → State → State}
    (h : ∀ c u, (f c u).faultView = u.faultView) : (s.forEach cells f).faultView = s.faultView :=
  List.foldlRecOn cells _ (motive := fun u => u.faultView = s.faultView) rfl
    fun u hu c _ => (h c u).trans hu

/-- An event taken from what waits for the transfer leaves what waits from protection (R105). -/
theorem takeEvent_faultView {e : TransferEvent} {h : Handed} (taken : s.handed.takeEvent e = some h) :
    (s.setHanded h).faultView = s.faultView := by
  unfold Handed.takeEvent at taken
  split at taken
  · split at taken <;> cases taken
    rfl
  · split at taken <;> cases taken
    rfl

/-! ### The revert (R110, R145, R205) -/

@[simp] theorem revertInput_faultView : s.revertInput.faultView = s.faultView := by
  obtain ⟨_, -, reverted⟩ := s.revertInput_eq
  rw [reverted]
  split <;> rfl

@[simp] theorem revertTransfer_faultView (cause : EndCause) :
    (s.revertTransfer cause).faultView = s.faultView := by
  unfold revertTransfer
  dsimp only
  split
  · rfl
  · exact endTransferOnEvent_faultView _ cause

@[simp] theorem revertTransferAfterGrant_faultView (first : Bool) :
    (s.revertTransferAfterGrant first).faultView = s.faultView := by
  unfold revertTransferAfterGrant
  split
  · rename_i h hfirst
    have taken : s.handed.takeEvent .inputGranted = some h := by
      cases first
      · cases hfirst
      · exact hfirst
    rw [revertTransfer_faultView, s.takeEvent_faultView taken]
  · exact s.revertTransfer_faultView .host

/-- A revert leaves protection's actions where they stand, DIE among the suspend reasons. -/
@[simp] theorem revert_faultView : s.revert.faultView = s.faultView := by
  unfold revert revertInhibits revertCeilings revertInputAndTransfer
  dsimp only
  split <;> simp

end State

/-! ### Tables (R115, R165, R190, R195, R196) -/

/-- Words that come into force change the classes and the records under PROTECT alone. -/
theorem State.force_sound (s : State) (r : RecordId) (offset n : Nat) (w : Words) (ok : s.faultView.Sound) :
    (s.force r offset n w).faultView.Sound := by
  cases r with
  | protect => exact s.setProtectWords_sound w ok
  | limits =>
    show (s.forceLimits offset n w).faultView.Sound
    unfold forceLimits
    dsimp only
    split
    · rw [hingeCapWritten_eq]
      split
      · exact ok
      · rw [recompute_faultView]
        exact ok
    · exact ok
  | profileN | profileF | bands | balance | calibration | gauge => exact ok

theorem State.takeDefaults_sound (s : State) (r : RecordId) (ok : s.faultView.Sound) :
    (s.takeDefaults r).faultView.Sound := by
  unfold takeDefaults
  split
  · rw [setCopies_faultView]
    exact ok
  · exact s.force_sound r _ _ _ ok

theorem LoadProgress.take_sound (p : LoadProgress) (r : RecordId) (ok : p.state.faultView.Sound) :
    (p.take r).state.faultView.Sound := by
  unfold LoadProgress.take
  dsimp only
  split
  · split
    · split
      · rw [State.setCopies_faultView]
        exact ok
      · exact p.state.takeDefaults_sound r ok
    · exact p.state.force_sound r _ _ _ ok
  · exact p.state.takeDefaults_sound r ok

theorem State.powerOnLoad_sound (s : State) (ok : s.faultView.Sound) :
    s.powerOnLoad.state.faultView.Sound :=
  List.foldlRecOn RecordId.all LoadProgress.take (motive := fun p => p.state.faultView.Sound) ok
    fun p hp r _ => p.take_sound r hp

theorem LoadOutcome.take_sound (o : LoadOutcome) (r : RecordId) (ok : o.state.faultView.Sound) :
    (o.take r).state.faultView.Sound := by
  unfold LoadOutcome.take
  dsimp only
  split
  · split
    · rw [State.promote_faultView]
      exact ok
    · exact o.state.force_sound r _ _ _ ok
  · exact ok

theorem State.loadRecords_sound (s : State) (rs : List RecordId) (ok : s.faultView.Sound) :
    (s.loadRecords rs).state.faultView.Sound :=
  List.foldlRecOn rs LoadOutcome.take (motive := fun o => o.state.faultView.Sound) ok
    fun o ho r _ => o.take_sound r ho

end Sys2Proof.Machine
end

section
/-! PROOFS. Every command, and every step, keeps the fault records tied and their actions standing at their receivers
or waiting for them: most commands leave both alone (R156 to R172). -/

namespace Sys2Proof.Machine

/-- Whatever state a command gives, protection is sound in it where it was in the state before. -/
def FaultKeeping (s : State) (o : Result) : Prop :=
  s.faultView.Sound → ∀ t, o = .next t → t.faultView.Sound

namespace FaultKeeping
variable {s t : State}

theorem next (h : s.faultView.Sound → t.faultView.Sound) : FaultKeeping s (.next t) := by
  intro ok u hu
  injection hu with hu
  exact hu ▸ h ok

theorem quiet (h : t.faultView = s.faultView) : FaultKeeping s (.next t) := next fun ok => h ▸ ok

theorem stay : FaultKeeping s (.next s) := quiet rfl

/-- A request keeps what carrying it out keeps (R199). -/
theorem request {k : RequestKind} {tag : Byte} {act : State → Answer}
    (h : s.faultView.Sound → (act s).state.faultView.Sound) : FaultKeeping s (s.request k tag act) := by
  by_cases hrun : s.phase = .running
  · rw [s.request_running k tag act hrun]
    exact next h
  · rw [s.request_closed k tag act hrun]
    exact stay

/-- A request whose answer leaves protection and its receivers alone. -/
theorem request_quiet {k : RequestKind} {tag : Byte} {act : State → Answer}
    (h : (act s).state.faultView = s.faultView) : FaultKeeping s (s.request k tag act) :=
  request fun ok => h ▸ ok

end FaultKeeping

/-! ### Requests -/

namespace State
variable (s : State)

theorem ceiling_faultView (target : Byte) (value : Word) :
    (s.ceiling target value).state.faultView = s.faultView := by
  unfold ceiling
  split
  · exact s.forEach_faultView _ fun c u => u.setCeiling_faultView _ c
  · rfl

theorem chargeRestart_faultView (target : Byte) : (s.chargeRestart target).state.faultView = s.faultView := by
  unfold chargeRestart
  split
  · split
    · rfl
    · exact s.forEach_faultView _ fun c u => u.takeEventSeq_faultView c _
  · rfl

theorem gaugeSeed_faultView (target : Byte) : (s.gaugeSeed target).state.faultView = s.faultView := by
  unfold gaugeSeed
  split
  · exact s.forEach_faultView _ fun c u => rfl
  · rfl

theorem acceptInhibit_faultView (cells : List Cell) (f : Byte → Byte) :
    (s.acceptInhibit cells f).state.faultView = s.faultView :=
  s.forEach_faultView cells fun c u => u.setInhibitSet_faultView c _

theorem claim_faultView (cells : List Cell) (mask blocking : Byte) :
    (s.claim cells mask blocking).state.faultView = s.faultView := by
  unfold claim
  split
  · exact s.acceptInhibit_faultView cells _
  · rfl

theorem placing_faultView (target mask : Byte) {act : List Cell → Answer}
    (h : ∀ cells, (act cells).state.faultView = s.faultView) :
    (s.placing target mask act).state.faultView = s.faultView := by
  unfold placing
  split
  · split
    · rfl
    · exact h _
  · rfl

theorem inhibitClear_faultView (target mask : Byte) :
    (s.inhibitClear target mask).state.faultView = s.faultView := by
  unfold inhibitClear
  split
  · exact s.acceptInhibit_faultView _ _
  · rfl

theorem writeAndPromote_faultView (id offset : Byte) (r : RecordId) (k : Copies) (words : List Word) :
    (s.writeAndPromote id offset r k words).state.faultView = s.faultView := s.promote_faultView r _ .write

theorem writePending_faultView (id offset : Byte) (r : RecordId) (k : Copies) (words : List Word) :
    (s.writePending id offset r k words).state.faultView = s.faultView := s.setCopies_faultView r _

/-- Words written into PROTECT change the classes, and words for any other table leave protection (R165, R211). -/
theorem writeRecord_sound (final : Bool) (id offset : Byte) (r : RecordId) (words : List Word)
    (ok : s.faultView.Sound) : (s.writeRecord final id offset r words).state.faultView.Sound := by
  unfold writeRecord
  split
  · exact ok
  · split
    · split
      · rw [writeAndPromote_faultView]
        exact ok
      · rw [writePending_faultView]
        exact ok
    · exact s.force_sound r _ _ _ ok

theorem tableWrite_sound (final : Bool) (id offset flags : Byte) (words : List Word)
    (ok : s.faultView.Sound) : (s.tableWrite final id offset flags words).state.faultView.Sound := by
  unfold tableWrite
  split
  · exact ok
  · split
    · exact ok
    · split
      · exact s.writeRecord_sound final id offset _ words ok
      all_goals exact ok

theorem storeRequest_faultView (mask : Word) : (s.storeRequest mask).state.faultView = s.faultView := by
  unfold storeRequest
  split
  · rfl
  · show (s.startStore (recordsIn mask)).faultView = s.faultView
    unfold startStore
    split <;> rfl

theorem loadRequest_sound (mask : Word) (ok : s.faultView.Sound) :
    (s.loadRequest mask).state.faultView.Sound := by
  unfold loadRequest
  split
  · exact ok
  · exact s.loadRecords_sound (recordsIn mask) ok

theorem cancelStore_faultView : s.cancelStore.state.faultView = s.faultView := by
  unfold cancelStore
  split <;> rfl

theorem writeMask_faultView (enabled : Word) : (s.writeMask enabled).state.faultView = s.faultView := by
  unfold writeMask
  split <;> rfl

theorem softReset_faultView : s.softReset.state.faultView = s.faultView := by
  show s.reopenQueue.revert.discardPending.faultView = s.faultView
  rw [discardPending_faultView, revert_faultView, reopenQueue_faultView]

end State

section
variable (s : State)

/-! ### Power-on and time (R128, R144, R176, R196) -/

/-- At power-on no kind is active and nothing waits. -/
theorem State.powerOn_sound : s.powerOn.faultView.Sound := by
  rw [State.faultView_sound_iff]
  have tied : ∀ k ∈ FaultKind.all, FaultOk defaultProtect k (powerOnProtection.record.get k) := by decide
  exact ⟨tied, rfl, rfl, rfl⟩

/-- Passing time counts the retry timers down and leaves the records. -/
theorem State.tick_faultView : s.tick.faultView = s.faultView := rfl

theorem execPowerOnLoad_faultKeeping : FaultKeeping s (execPowerOnLoad s) := by
  unfold execPowerOnLoad
  split
  · have brought := s.powerOnLoad_sound
    generalize s.powerOnLoad = p at brought ⊢
    exact .next brought
  · exact .stay

/-! ### Protection's commands (R161, R166, R167) -/

theorem execProtectionSetReaction_faultKeeping : FaultKeeping s (execProtectionSetReaction s) := by
  unfold execProtectionSetReaction
  split
  · exact .next fun ok => State.protectOn_sound _ _ ok
  · exact .stay

theorem execOvercurrentTrip_faultKeeping (c : Cell) (current : Int) :
    FaultKeeping s (execOvercurrentTrip c current s) := by
  unfold execOvercurrentTrip
  dsimp only
  split
  · have disarmed : (s.setPath c { s.path.get c with armed := false }).faultView = s.faultView :=
      s.setPath_faultView_same c rfl
    exact .next fun ok => State.takeTrip_sound _ c (disarmed ▸ ok)
  · exact .stay

theorem execRetryTimerExpiry_faultKeeping (c : Cell) : FaultKeeping s (execRetryTimerExpiry c s) := by
  unfold execRetryTimerExpiry
  split
  · exact .next fun ok =>
      s.setFaults_set_sound (.oc c) (FaultOk.clearTransition (ok.tied (.oc c))) ok
  · exact .stay

/-! ### The receivers' commands (R114, R136, R170) -/

/-- A path takes the blocks that wait for it whether they change its restriction or not. -/
theorem exec_pathRestrictionChange_faultKeeping (c : Cell) :
    FaultKeeping s (exec (.pathRestrictionChange c) s) := by
  cases hwait : s.handed.pathBlocks.get c with
  | nil =>
    simp only [exec, execPathRestrictionChange, hwait]
    exact .stay
  | cons b rest =>
    by_cases same : b.restriction = (s.path.get c).restriction
    · rw [exec_pathRestrictionChange_same hwait same]
      refine .next fun ok => ?_
      have taken := ok.takesBlocks hwait
      rw [same, ← State.faultView_restriction_get, PerCell.set_get] at taken
      exact taken
    · obtain ⟨_, taken, p, rfl, -, restricts, -⟩ := exec_pathRestrictionChange_new hwait same
      rw [taken, Handed.restrictionChange_eq]
      refine .next fun ok => ?_
      have due := ok.takesBlocks hwait
      rw [← restricts] at due
      rw [State.faultView, PerCell.map_set]
      exact due

theorem execDieSuspendReasonChange_faultKeeping : FaultKeeping s (execDieSuspendReasonChange s) := by
  unfold execDieSuspendReasonChange
  split
  · rename_i d rest hwait
    refine .next fun ok => ?_
    rw [State.setReasons_faultView]
    exact ok.takesDie hwait
  · exact .stay

/-! ### Commands that leave both alone -/

theorem execTripRearm_faultKeeping (c : Cell) (current : Int) :
    FaultKeeping s (execTripRearm c current s) := by
  unfold execTripRearm
  split
  · exact .stay
  · exact .quiet (s.setPath_faultView_same c rfl)

theorem execRampTimerExpiry_faultKeeping (c : Cell) : FaultKeeping s (execRampTimerExpiry c s) := by
  unfold execRampTimerExpiry
  split
  · exact .quiet (s.setPath_faultView_same c rfl)
  · exact .stay

theorem execTransferEventEnd_faultKeeping (e : TransferEvent) :
    FaultKeeping s (execTransferEventEnd e s) := by
  unfold execTransferEventEnd
  split
  · rename_i h taken
    have left := s.takeEvent_faultView taken
    dsimp only
    split
    · exact .quiet ((State.endTransferOnEvent_faultView _ _).trans left)
    · exact .quiet left
  · exact .stay

end

/-! ### Every command and every step -/

/-- Every command keeps protection sound. -/
theorem exec_faultKeeping (s : State) (i : Instr) : FaultKeeping s (exec i s) := by
  cases i with
  | powerOnReset => exact .next fun _ => s.powerOn_sound
  | powerOnLoad => exact execPowerOnLoad_faultKeeping s
  | protectionSetReaction => exact execProtectionSetReaction_faultKeeping s
  | overcurrentTrip c current => exact execOvercurrentTrip_faultKeeping s c current
  | retryTimerExpiry c => exact execRetryTimerExpiry_faultKeeping s c
  | pathRestrictionChange c => exact exec_pathRestrictionChange_faultKeeping s c
  | dieSuspendReasonChange => exact execDieSuspendReasonChange_faultKeeping s
  | faultClear tag mask => exact .request (s.faultClear_sound mask)
  | tableWrite tag id offset flags words | tableWriteFinal tag id offset flags words =>
    exact .request (s.tableWrite_sound _ id offset flags words)
  | load tag mask => exact .request (s.loadRequest_sound mask)
  | tripRearm c current => exact execTripRearm_faultKeeping s c current
  | rampTimerExpiry c => exact execRampTimerExpiry_faultKeeping s c
  | transferEventEnd e => exact execTransferEventEnd_faultKeeping s e
  -- Whether the command takes place or not, another block's record alone has changed.
  | powerOnLoadCompletion | roundTimerExpiry | roundCompletion | counterSetSteps | grantsClearedOnWithdrawal
  | farGrantHingeCap | settleTimerExpiry | startupSampleExpiry | badRequestFrame | unknownRequest | lengthError
  | readReply =>
    dsimp only [exec, execPowerOnLoadCompletion, execRoundTimerExpiry, execRoundCompletion,
      execCounterSetSteps, execGrantsClearedOnWithdrawal, execFarGrantHingeCap, execSettleTimerExpiry,
      execStartupSampleExpiry, execBadRequestFrame, execUnknownRequest, execLengthError, execReadReply]
    split <;> exact .quiet rfl
  | comparatorRawChange => exact .quiet rfl
  | emptyWrite => exact .stay
  -- Both again, where the command decides more than once.
  | fullMark | inputSagDerateStep | foldRawChange | hingeFilterExpiry | recordCompletion =>
    dsimp only [exec, execFullMark, execInputSagDerateStep, execFoldRawChange, execHingeFilterExpiry,
      execRecordCompletion]
    repeat' split
    all_goals exact .quiet rfl
  -- Whether an event waits or not, a shared operation that leaves protection alone takes it.
  | sequencerSetHandling | seqInputGranted | seqInhibitEvent | seqFaultReasonUpdate | seqPromotion
  | allocationFrame | pathInputGranted | pathInputWithdrawn | pathHingeUnsettled | attachFilterExpiry
  | qualificationExpiry | supervisorExpiry =>
    dsimp only [exec, execSequencerSetHandling, execSeqInputGranted, execSeqInhibitEvent,
      execSeqFaultReasonUpdate, execSeqPromotion, execAllocationFrame, execPathInputGranted,
      execPathInputWithdrawn, execPathHingeUnsettled, execAttachFilterExpiry, execQualificationExpiry,
      execSupervisorExpiry]
    split <;> exact .quiet (by simp)
  | safetyTimerExpiry | seqInputWithdrawn | pathOrderDelivery =>
    dsimp only [exec, execSafetyTimerExpiry, execSeqInputWithdrawn, execPathOrderDelivery]
    repeat' split
    all_goals exact .quiet (by simp)
  | identify | status | allocation => exact FaultKeeping.request_quiet (act := fun t => t.shows _) rfl
  | measure tag sect => exact .request_quiet (congrArg State.faultView (s.measure_state sect))
  | cell tag cell sect => exact .request_quiet (congrArg State.faultView (s.cellRecord_state cell sect))
  | faults tag sect => exact .request_quiet (congrArg State.faultView (s.faults_state sect))
  | inputSuspendRead tag func => exact .request_quiet (congrArg State.faultView (s.readSuspend_state func))
  | inputSuspendSuspend | inputSuspendResume => exact .request_quiet (s.setReasons_faultView _)
  | ceiling tag target value => exact .request_quiet (s.ceiling_faultView target value)
  | inhibitSelect tag target mask | inhibitEmptySelect tag target mask =>
    exact .request_quiet (s.placing_faultView target mask fun cells => s.claim_faultView cells mask _)
  | inhibitSet tag target mask =>
    exact .request_quiet (s.placing_faultView target mask fun cells => s.acceptInhibit_faultView cells _)
  | inhibitClear tag target mask => exact .request_quiet (s.inhibitClear_faultView target mask)
  | inhibitTest tag func target mask =>
    exact .request_quiet (congrArg State.faultView (s.inhibitTest_state func target mask))
  | chargeRestart tag target => exact .request_quiet (s.chargeRestart_faultView target)
  | gaugeSeed tag target => exact .request_quiet (s.gaugeSeed_faultView target)
  | balanceRead tag func => exact .request_quiet (congrArg State.faultView (s.readBalance_state func))
  | inputLimit | balanceEnable | noticeFetch => exact .request_quiet rfl
  | balanceDisable | balanceCancel => exact .request_quiet (State.endTransferOnEvent_faultView _ .host)
  | tableRead tag id offset count =>
    exact .request_quiet (congrArg State.faultView (s.tableRead_state id offset count))
  | store tag mask => exact .request_quiet (s.storeRequest_faultView mask)
  | storeCancel tag => exact .request_quiet s.cancelStore_faultView
  | noticeMaskRead tag func enabled =>
    exact .request_quiet (congrArg State.faultView (s.readMask_state func))
  | noticeMaskWrite tag enabled => exact .request_quiet (s.writeMask_faultView enabled)
  | softReset tag => exact .request_quiet s.softReset_faultView

/-- Settles O54: every command keeps protection sound, and so does passing time. -/
theorem faultActionsReachTheirReceivers : Obligations.FaultActionsReachTheirReceivers := by
  unfold Obligations.FaultActionsReachTheirReceivers
  intro s t tied reach ht
  rw [← State.faultView_sound_iff]
  have ok : s.faultView.Sound := s.faultView_sound_iff.2 ⟨tied, reach⟩
  cases hq : s.pending with
  | nil =>
    rw [step_empty s hq] at ht
    injection ht with ht
    rw [← ht, State.tick_faultView]
    exact ok
  | cons i rest =>
    rw [step_cons s i rest hq] at ht
    exact exec_faultKeeping { s with pending := rest } i ok t ht

end Sys2Proof.Machine
end

section
/-! PROOFS. Protection's commands on the records together: the reaction to a set and FAULT-CLEAR, with the notices and
what each hands on (R156 to R164, R169 to R174). -/

namespace Sys2Proof.Machine

/-! ### The reaction to a set (R161, R162, R171, R174) -/

/-- What a set makes of a tied record, from its condition before and after (R158, R162 to R164). -/
theorem FaultOk.onVerdict_moves {w : Words} {k : FaultKind} {r : FaultRecord} (ok : FaultOk w k r)
    (frame : Nat) (v : Verdict) :
    let new := r.onVerdict (Protect.classOf w k.num) frame v
    let rose := r.active = false ∧ new.active = true
    (new.latched = true ↔ r.latched = true ∨ rose)
      ∧ new.count = (if rose then min 255 (r.count + 1) else r.count)
      ∧ new.lastFrame = (if rose then frame else r.lastFrame)
      ∧ new.inForce = judge (Protect.classOf w k.num) new.active new.latched := by
  intro new rose
  obtain ⟨-, inForce, -⟩ : FaultOk w k new := FaultOk.onVerdict ok frame v
  have rises : r.rises v = true ↔ rose := r.rises_iff _ frame v
  by_cases h : rose
  · have set : new = _ := r.onVerdict_rises _ frame v (rises.2 h)
    rw [if_pos h, if_pos h, set]
    exact ⟨iff_of_true rfl (.inr h), countUpTo_eq_min .., rfl, rfl⟩
  · obtain ⟨latched, count, lastFrame⟩ :=
      r.onVerdict_quiet (Protect.classOf w k.num) frame v (Bool.eq_false_iff.2 (mt rises.1 h))
    rw [if_neg h, if_neg h]
    exact ⟨by rw [latched, or_iff_left h], count, lastFrame, inForce⟩

/-- The in-force flag by the class word (R163). -/
theorem judge_eq_match (cls : Int) (active latched : Bool) :
    judge cls active latched = match cls with
      | 1 => active
      | 2 => latched
      | _ => false := by
  unfold judge
  split
  · rename_i resume
    subst resume
    rfl
  · split
    · rename_i latch
      subst latch
      rfl
    · split
      · contradiction
      · contradiction
      · rfl

namespace State
variable (s : State) (m : MeasSet)

/-- The fault records after a set. -/
def recordsOn : PerFault FaultRecord :=
  recordsAfterSet s.prot.record s.tables.protect s.alloc.frame.number m

theorem recordsOn_get (k : FaultKind) :
    (s.recordsOn m).get k = (s.prot.record.get k).onVerdict (Protect.classOf s.tables.protect k.num)
      s.alloc.frame.number (setVerdict s.tables.protect m k) := PerFault.get_ofKind ..

/-- A kind takes a set transition on a set where its condition becomes active. -/
theorem rises_iff_recordsOn (k : FaultKind) :
    (s.prot.record.get k).rises (setVerdict s.tables.protect m k) = true
      ↔ (s.prot.record.get k).active = false ∧ ((s.recordsOn m).get k).active = true := by
  rw [recordsOn_get]
  exact FaultRecord.rises_iff ..

theorem risingKinds_eq :
    risingKinds s.prot.record s.tables.protect m = FaultKind.all.filter fun k =>
      !(s.prot.record.get k).active && ((s.recordsOn m).get k).active := by
  refine List.filter_congr fun k _ => ?_
  rw [Bool.eq_iff_iff, rises_iff_recordsOn, Bool.and_eq_true, Bool.not_eq_true']

/-- Everything that protection's reaction to a set does. -/
theorem protectOn_eq :
    s.protectOn m = { s with
      prot := { s.prot with record := s.recordsOn m }
      link := (FaultKind.all.filter fun k =>
          !(s.prot.record.get k).active && ((s.recordsOn m).get k).active).foldl
        (fun l k => l.notify s.alloc.frame.number (.fault (1#16 <<< k.num))) s.link
      handed := { (s.setFaults (s.recordsOn m)).handed with
        transfer := s.handed.transfer
          ++ if s.prot.record.sysUv.active = false ∧ (s.recordsOn m).sysUv.active = true then [.sysUv]
            else [] } } := by
  have rises : s.prot.record.sysUv.rises (setVerdict s.tables.protect m .sysUv) = true ↔ _ :=
    s.rises_iff_recordsOn m .sysUv
  unfold protectOn
  dsimp only
  rw [notifyFaults_eq, risingKinds_eq]
  by_cases h : s.prot.record.sysUv.active = false ∧ (s.recordsOn m).sysUv.active = true
  · rw [if_pos (rises.2 h), if_pos h]
    rfl
  · rw [if_neg (mt rises.1 h), if_neg h, List.append_nil]
    rfl

end State

/-- Settles O21: each record moves by its verdict on the set, and what changes is handed on. -/
theorem setReactionMovesEveryCondition : Obligations.SetReactionMovesEveryCondition := by
  unfold Obligations.SetReactionMovesEveryCondition
  intro s m rest hwait tied
  let u := s.setHanded { s.handed with protSet := rest }
  have taken : exec .protectionSetReaction s = .next (u.protectOn m) := by
    simp only [exec, execProtectionSetReaction, hwait]
    rfl
  rw [u.protectOn_eq m] at taken
  refine ⟨_, taken, rfl, rfl, fun k hk => ?_, rfl, ?_⟩
  · obtain ⟨latched, count, lastFrame, inForce⟩ := (tied k hk).onVerdict_moves s.alloc.frame.number
      (setVerdict s.tables.protect m k)
    have new : (u.recordsOn m).get k = _ := u.recordsOn_get m k
    dsimp only
    rw [new, conditionAfter_eq]
    exact ⟨FaultRecord.onVerdict_active .., latched, count, lastFrame, inForce.trans (judge_eq_match ..)⟩
  · have handed : (u.setFaults (u.recordsOn m)).handed = _ := u.setFaults_handed (u.recordsOn m)
    rw [handed]
    simp only [List.mem_singleton, exists_eq_left]
    rfl

/-! ### FAULT-CLEAR (R172) -/

theorem FaultKind.num_injective {j k : FaultKind} (h : j.num = k.num) : j = k :=
  have distinct : ∀ j ∈ FaultKind.all, ∀ k ∈ FaultKind.all, j.num = k.num → j = k := by decide
  distinct j j.mem_all k k.mem_all h

theorem FaultKind.num_le (k : FaultKind) : k.num ≤ 12 := by cases k <;> decide

/-- A set of fault kinds has the bit of a kind exactly where the kind has the property. -/
theorem faultSet_kind (p : FaultKind → Bool) (k : FaultKind) :
    (faultSet p).getLsbD k.num = true ↔ p k = true := by
  rw [faultSet_mem p k.num (by have := k.num_le; omega)]
  constructor
  · rintro ⟨j, -, same, hj⟩
    exact FaultKind.num_injective same ▸ hj
  · exact fun hk => ⟨k, k.mem_all, rfl, hk⟩

/-- A mask names nothing outside 0..12 where its three upper bits are 0. -/
theorem maskWithin_kinds (mask : Word) : maskWithin 0 12 mask = true ↔ mask &&& 0xE000 = 0 :=
  maskWithin_iff mask 0 12 0xE000 (by decide)

/-- A set of fault kinds names no number beyond 12. -/
theorem faultSet_within (p : FaultKind → Bool) : faultSet p &&& 0xE000 = 0 := by
  rw [← maskWithin_kinds, maskWithin, List.all_eq_true]
  intro n hn
  rw [Bool.or_eq_true, Bool.not_eq_true', ← Bool.not_eq_true]
  by_cases h : hasBit (faultSet p) n = true
  · obtain ⟨k, -, rfl, -⟩ := (faultSet_mem p n (List.mem_range.1 hn)).1 h
    have := k.num_le
    exact .inr (by simpa using this)
  · exact .inl h

/-- The latch of a named kind is cleared where its condition is inactive, and any other record stays. -/
theorem recordsAfterClear_get (p : PerFault FaultRecord) (w : Words) (mask : Word) (k : FaultKind) :
    (recordsAfterClear p w mask).get k =
      if mask.getLsbD k.num = true ∧ (p.get k).active = false then
        { p.get k with latched := false, inForce := judge (Protect.classOf w k.num) false false }
      else p.get k := by
  rw [recordsAfterClear, PerFault.get_ofKind, hasBit]
  cases named : mask.getLsbD k.num with
  | false => simp
  | true => cases active : (p.get k).active <;> simp [FaultRecord.clearLatch, FaultRecord.judged, active]

/-- Settles O23: the latches of the named, inactive kinds are cleared, and the lifts are handed on as every change of
the records is. -/
theorem faultClearClearsInactiveLatches : Obligations.FaultClearClearsInactiveLatches := by
  unfold Obligations.FaultClearClearsInactiveLatches
  intro s tag mask hrun
  have carried : exec (.faultClear tag mask) s = .next ((s.faultClear mask).reply 0x14 tag) :=
    s.request_running .faultClear tag _ hrun
  rw [carried]
  constructor
  · intro outside
    rw [State.faultClear, if_neg (mt (maskWithin_kinds mask).1 outside)]
    rfl
  · intro within
    rw [State.faultClear, if_pos ((maskWithin_kinds mask).2 within)]
    refine ⟨s.setFaults (recordsAfterClear s.prot.record s.tables.protect mask),
      unchangedSet s.prot.record mask, rfl, faultSet_within _, rfl, rfl, s.setFaults_handed _, fun k _ => ?_⟩
    dsimp only
    constructor
    · rw [unchangedSet, faultSet_kind, Bool.and_eq_true]
      rfl
    · have new : (s.setFaults (recordsAfterClear s.prot.record s.tables.protect mask)).prot.record.get k = _ :=
        recordsAfterClear_get s.prot.record s.tables.protect mask k
      rw [new]
      split <;> rfl

end Sys2Proof.Machine
end

section
/-! PROOFS. The five INHIBIT functions (R179 to R184): what a change of one set and of every set of a target hands on,
which reasons are present in a target, and when a function is refused. -/

namespace Sys2Proof.Machine

/-! ### Targets and masks (R180, R212) -/

/-- A target value that names cells is at most 2. -/
theorem not_two_lt_of_targetOf {b : Byte} {cells : List Cell} (h : targetOf b = some cells) :
    ¬ 2 < b.toNat := fun bad => by
  rw [targetOf_eq_none bad] at h
  cases h

/-- The target values that name cells, each with its cells. -/
theorem targetOf_cases {b : Byte} {cells : List Cell} (h : targetOf b = some cells) :
    (b = 0 ∧ cells = [.near]) ∨ (b = 1 ∧ cells = [.far]) ∨ (b = 2 ∧ cells = [.near, .far]) := by
  have hb : ¬ 2 < b.toNat := not_two_lt_of_targetOf h
  obtain rfl | rfl | rfl : b = 0 ∨ b = 1 ∨ b = 2 := by bv_omega
  · exact .inl ⟨rfl, (Option.some.inj h).symm⟩
  · exact .inr (.inl ⟨rfl, (Option.some.inj h).symm⟩)
  · exact .inr (.inr ⟨rfl, (Option.some.inj h).symm⟩)

/-- BOOT is bit 0 of a mask (R178). -/
theorem namesBoot_iff (mask : Byte) : namesBoot mask = true ↔ mask &&& 1 ≠ 0 := by
  have bit : mask &&& 1 = (BitVec.ofBool (mask.getLsbD 0)).setWidth 8 :=
    BitVec.and_one_eq_setWidth_ofBool_getLsbD
  rw [bit, namesBoot]
  cases mask.getLsbD 0 <;> decide

/-! ### One set changed (R178, R179) -/

/-- What the sequencer is told of a set that was `old` and is now `new`. -/
def inhibitTold (old new : Byte) : List Bool := if new = old then [] else [new != 0]

/-- What the transfer operation is told of a cell's set that was `old` and is now `new`. -/
def inhibitEnds (c : Cell) (old new : Byte) : List TransferEvent :=
  if old = 0 ∧ new ≠ 0 then [.inhibit c] else []

theorem inhibitTold_same (old : Byte) : inhibitTold old old = [] := if_pos rfl

theorem inhibitEnds_same (c : Cell) (old : Byte) : inhibitEnds c old old = [] :=
  if_neg fun ⟨empty, held⟩ => held empty

namespace State
variable (s : State)

/-- A set given anew hands its change on, and nothing where it stays the same. -/
theorem setInhibitSet_hands (c : Cell) (new : Byte) :
    s.setInhibitSet c new = { s with
      inhibit := s.inhibit.set c new
      handed := { s.handed with
        seqInhibit := s.handed.seqInhibit.set c
          (s.handed.seqInhibit.get c ++ inhibitTold (s.inhibit.get c) new)
        transfer := s.handed.transfer ++ inhibitEnds c (s.inhibit.get c) new } } := by
  by_cases h : new = s.inhibit.get c
  · subst h
    simp only [setInhibitSet_same, inhibitTold_same, inhibitEnds_same, List.append_nil, PerCell.set_get]
  · have told : inhibitTold (s.inhibit.get c) new = [new != 0] := if_neg h
    have ends : s.handed.transfer ++ inhibitEnds c (s.inhibit.get c) new
        = if s.inhibit.get c = 0 then s.handed.transfer ++ [.inhibit c] else s.handed.transfer := by
      by_cases empty : s.inhibit.get c = 0
      · rw [inhibitEnds, if_pos empty, if_pos ⟨empty, empty ▸ h⟩]
      · rw [inhibitEnds, if_neg empty, if_neg (mt And.left empty), List.append_nil]
    rw [s.setInhibitSet_eq c new h, told, ends, Handed.inhibitChange]

@[simp] theorem setInhibitSet_inhibit (c : Cell) (new : Byte) :
    (s.setInhibitSet c new).inhibit = s.inhibit.set c new := by
  rw [setInhibitSet_frame]

/-! ### Every set of a target changed (R181, R182) -/

/-- A cell's set after a change of the sets of a target. -/
def changedSet (target : Byte) (f : Byte → Byte) (c : Cell) : Byte :=
  if target = 2 ∨ target = cellCode c then f (s.inhibit.get c) else s.inhibit.get c

section
variable {target : Byte} {cells : List Cell}

/-- A change of a target's sets gives both cells their new sets, for a set given as it was is no change. -/
theorem changeSets_both (h : targetOf target = some cells) (f : Byte → Byte) :
    s.changeSets cells f =
      (s.setInhibitSet .near (s.changedSet target f .near)).setInhibitSet .far
        (s.changedSet target f .far) := by
  have near_same : s.setInhibitSet .near s.inhibit.near = s := s.setInhibitSet_same .near
  have far_same (new : Byte) :
      (s.setInhibitSet .near new).setInhibitSet .far s.inhibit.far = s.setInhibitSet .near new := by
    simpa using (s.setInhibitSet .near new).setInhibitSet_same .far
  obtain ⟨rfl, rfl⟩ | ⟨rfl, rfl⟩ | ⟨rfl, rfl⟩ := targetOf_cases h
  · simp [changeSets, forEach, changedSet, cellCode, far_same]
  · simp [changeSets, forEach, changedSet, cellCode, near_same]
  · simp [changeSets, forEach, changedSet]

/-- A change of a target's sets hands on the change of each cell's set, the near one first. -/
theorem changeSets_hands (h : targetOf target = some cells) (f : Byte → Byte) :
    s.changeSets cells f = { s with
      inhibit := ⟨s.changedSet target f .near, s.changedSet target f .far⟩
      handed := { s.handed with
        seqInhibit :=
          ⟨s.handed.seqInhibit.near ++ inhibitTold s.inhibit.near (s.changedSet target f .near),
            s.handed.seqInhibit.far ++ inhibitTold s.inhibit.far (s.changedSet target f .far)⟩
        transfer := s.handed.transfer ++ inhibitEnds .near s.inhibit.near (s.changedSet target f .near)
          ++ inhibitEnds .far s.inhibit.far (s.changedSet target f .far) } } := by
  rw [s.changeSets_both h f, setInhibitSet_hands, s.setInhibitSet_hands .near]
  rfl

/-! ### The reasons present in a target (R181, R183, R184) -/

/-- The named reasons that one cell's set holds, where the cell is of the target. -/
def presentIn (target bits : Byte) (c : Cell) : Byte :=
  if target = 2 ∨ target = cellCode c then s.inhibit.get c &&& bits else 0

/-- The reasons present in a target are those of its cells' sets together. -/
theorem present_eq (h : targetOf target = some cells) (bits : Byte) :
    s.present cells bits = s.presentIn target bits .near ||| s.presentIn target bits .far := by
  obtain ⟨rfl, rfl⟩ | ⟨rfl, rfl⟩ | ⟨rfl, rfl⟩ := targetOf_cases h <;>
    simp [present, presentIn, cellCode]

end

/-! ### The functions refused and carried out (R180 to R184) -/

section
variable {s : State} {target mask : Byte} {cells : List Cell}

theorem placing_refused {act : List Cell → Answer} (h : 2 < target.toNat ∨ mask &&& 1 ≠ 0) :
    s.placing target mask act = ⟨s, .badArg, s.inhibitBody 0⟩ := by
  unfold placing
  split
  next cells hcells =>
    rw [if_pos ((namesBoot_iff mask).2 (h.resolve_left (not_two_lt_of_targetOf hcells)))]
    rfl
  next => rfl

theorem placing_carried {act : List Cell → Answer} (hcells : targetOf target = some cells)
    (hboot : ¬ mask &&& 1 ≠ 0) : s.placing target mask act = act cells := by
  simp only [placing, hcells, if_neg (mt (namesBoot_iff mask).1 hboot)]

theorem inhibitClear_refused (h : 2 < target.toNat) :
    s.inhibitClear target mask = ⟨s, .badArg, s.inhibitBody 0⟩ := by
  rw [inhibitClear, targetOf_eq_none h]
  rfl

theorem inhibitClear_carried (hcells : targetOf target = some cells) :
    s.inhibitClear target mask = s.acceptInhibit cells (· &&& ~~~mask) := by
  rw [inhibitClear, hcells]

theorem inhibitTest_refused {func : Byte} (h : 2 < target.toNat ∨ func ≠ 3) :
    s.inhibitTest func target mask = ⟨s, .badArg, s.inhibitBody 0⟩ := by
  unfold inhibitTest
  split
  next cells hcells =>
    rw [if_pos (bne_iff_ne.2 (h.resolve_left (not_two_lt_of_targetOf hcells)))]
    rfl
  next => rfl

theorem inhibitTest_carried (hcells : targetOf target = some cells) :
    s.inhibitTest 3 target mask =
      ⟨s, if s.present cells mask = 0 then .accept else .abort, s.inhibitBody (s.present cells mask)⟩ := by
  rw [inhibitTest, hcells]
  rfl

end

end State

/-- Settles O37: a target's value and the BOOT bit decide what is refused, the reasons present in the target's sets
decide the test, and a change hands on what each cell's changed set does. -/
theorem inhibitFunctionsActOnTheTarget : Obligations.InhibitFunctionsActOnTheTarget := by
  unfold Obligations.InhibitFunctionsActOnTheTarget
  intro s tag target mask hrun inTarget held found reply refused changed boot claim
  have carried {i : Instr} (act : State → Answer) (h : exec i s = s.request .inhibit tag act) :
      exec i s = .next ((act s).reply 0x13 tag) :=
    h.trans (s.request_running .inhibit tag act hrun)
  have named (good : ¬ 2 < target.toNat) : ∃ cells, targetOf target = some cells :=
    exists_targetOf_eq_some (Nat.le_of_not_lt good)
  have change {cells : List Cell} (h : targetOf target = some cells) (f : Byte → Byte) :
      changed f (s.changeSets cells f) := by
    rw [s.changeSets_hands h f]
    refine ⟨rfl, fun c => ?_, fun c => ?_, rfl, rfl⟩ <;> cases c <;> rfl
  have claims {i : Instr} (bits : Byte)
      (h : exec i s = s.request .inhibit tag fun u =>
        u.placing target mask fun cells => u.claim cells mask (u.present cells bits)) : claim i bits := by
    dsimp only [claim]
    rw [carried _ h]
    by_cases bad : 2 < target.toNat ∨ boot
    · rw [if_pos bad, State.placing_refused bad]
    · obtain ⟨good, hboot⟩ := not_or.1 bad
      obtain ⟨cells, hcells⟩ := named good
      have present : s.present cells bits = found bits := s.present_eq hcells bits
      rw [if_neg bad, State.placing_carried hcells hboot, present, State.claim]
      by_cases free : found bits = 0
      · rw [if_pos free, if_pos free]
        exact ⟨_, rfl, change hcells _⟩
      · rw [if_neg free, if_neg free]
  refine ⟨claims mask rfl, claims 0xFF rfl, ?_, ?_, ?_, fun func stray => ?_⟩
  · rw [carried (State.inhibitSet target mask) rfl, State.inhibitSet]
    by_cases bad : 2 < target.toNat ∨ boot
    · rw [if_pos bad, State.placing_refused bad]
    · obtain ⟨good, hboot⟩ := not_or.1 bad
      obtain ⟨cells, hcells⟩ := named good
      rw [if_neg bad, State.placing_carried hcells hboot]
      exact ⟨_, rfl, change hcells _⟩
  · rw [carried (State.inhibitClear target mask) rfl]
    by_cases bad : 2 < target.toNat
    · rw [if_pos bad, State.inhibitClear_refused bad]
    · obtain ⟨cells, hcells⟩ := named bad
      rw [if_neg bad, State.inhibitClear_carried hcells]
      exact ⟨_, rfl, change hcells _⟩
  · rw [carried (State.inhibitTest 3 target mask) rfl]
    by_cases bad : 2 < target.toNat
    · rw [if_pos bad, State.inhibitTest_refused (.inl bad)]
    · obtain ⟨cells, hcells⟩ := named bad
      have present : s.present cells mask = found mask := s.present_eq hcells mask
      rw [if_neg bad, State.inhibitTest_carried hcells, present]
  · rw [carried (State.inhibitTest func target mask) rfl, State.inhibitTest_refused (.inr stray)]

end Sys2Proof.Machine
end

section
/-! PROOFS. What every command leaves alone or keeps whole at the message link: the queue of commands, the factory
block, the notice queue and the held reply (R188, R199 to R202), and the operations that blocks share. -/

namespace Sys2Proof.Machine

/-! ### The notice queue and the held reply (R200 to R202) -/

/-- What a new entry has, and what a merge keeps, every entry of the queue has after a notice. -/
theorem enqueue_forall {P : Entry → Prop} {p : Payload} {frame : Nat} {q : List Entry}
    (new : P ⟨p, 1, frame⟩)
    (merged : ∀ e, e.payload.kind = p.kind → P e →
      P { e with payload := e.payload.merge p, count := countUpTo 255 e.count })
    (old : ∀ e ∈ q, P e) : ∀ e ∈ enqueue p frame q, P e := by
  induction q with
  | nil => simpa [enqueue] using new
  | cons e es ih =>
    obtain ⟨first, rest⟩ := List.forall_mem_cons.1 old
    by_cases same : e.payload.kind = p.kind
    · rw [enqueue, if_pos same]
      exact List.forall_mem_cons.2 ⟨merged e same first, rest⟩
    · rw [enqueue, if_neg same]
      exact List.forall_mem_cons.2 ⟨first, ih rest⟩

theorem one_le_countUpTo {bound n : Nat} (h : 1 ≤ bound) : 1 ≤ countUpTo bound n := by
  unfold countUpTo
  split <;> omega

namespace QueueOk
variable {l : Link}

theorem notify (ok : QueueOk l) (frame : Nat) (p : Payload) : QueueOk (l.notify frame p) := by
  obtain ⟨once, entries, kinds⟩ := ok
  cases enabled : hasBit l.enabled p.kind with
  | false =>
    rw [l.notify_masked frame p enabled]
    exact ⟨once, entries, kinds⟩
  | true =>
    rw [l.notify_enabled_kind frame p enabled]
    refine ⟨?_, enqueue_forall ⟨enabled, le_rfl, (by decide : 1 ≤ 255)⟩ (fun e same held => ?_) entries, kinds⟩
    · rw [enqueue_kinds]
      split
      · exact once
      · rename_i absent
        exact List.nodup_append.2 ⟨once, List.nodup_singleton _, fun _ hx _ hy hxy =>
          absent (List.mem_singleton.1 hy ▸ hxy ▸ hx)⟩
    · refine ⟨?_, one_le_countUpTo (by decide), countUpTo_le 255 e.count⟩
      rw [Payload.merge_kind _ _ same]
      exact enabled

/-- Entries that are gone leave the others as they were (R202, R203). -/
theorem sublist (ok : QueueOk l) {q : List Entry} (h : q.Sublist l.queue) : QueueOk { l with queue := q } := by
  obtain ⟨once, entries, kinds⟩ := ok
  exact ⟨once.sublist (h.map _), fun e he => entries e (h.subset he), kinds⟩

theorem setMask (ok : QueueOk l) {enabled : Word} (within : maskWithin 1 12 enabled = true) :
    QueueOk (l.setMask enabled) := by
  obtain ⟨once, entries, -⟩ := ok.sublist (List.filter_sublist (p := fun e => hasBit enabled e.payload.kind))
  refine ⟨once, fun e he => ?_, within⟩
  obtain ⟨-, counted⟩ := entries e he
  exact ⟨(List.mem_filter.1 he).2, counted⟩

/-- An empty queue, with every kind enabled (R206, R207). -/
theorem empty (hq : l.queue = []) (he : l.enabled = allKinds) : QueueOk l := by
  unfold QueueOk
  rw [hq, he]
  decide

/-- The queue as the link opens, with POWERUP and perhaps DEFAULTED (R196, R207). -/
theorem opening (frame : Nat) (defaulted : Word) :
    QueueOk { powerOnLink with queue := openingQueue frame defaulted } := by
  unfold openingQueue
  split <;> simp [QueueOk, powerOnLink, Payload.kind] <;> decide

end QueueOk

/-- A reply frame with a body of at most 60 bytes is whole (R200). -/
theorem replyOk_frame (l : Link) (kind tag : Byte) (st : Status) {body : List Byte} (h : body.length ≤ 60) :
    ReplyOk { l with reply := some (replyFrame kind tag st body) } := by
  intro b hb
  obtain rfl : replyFrame kind tag st body = b := Option.mem_some.1 hb
  have len : ((replyFrame kind tag st body).getD 3 0).toNat = body.length := by
    show (BitVec.ofNat 8 body.length).toNat = body.length
    rw [BitVec.toNat_ofNat]
    omega
  rw [len, replyFrame_length]
  exact ⟨by omega, by omega, rfl, replyFrame_sum kind tag st body⟩

/-! ### The link with the queue of commands and the factory block -/

/-- What a command leaves alone or keeps whole. -/
structure LinkView where
  factory : Factory
  pending : List Instr
  link : Link

/-- The part of a state that it is. -/
def State.linkView (s : State) : LinkView := ⟨s.factory, s.pending, s.link⟩

/-- The factory block and the queue of commands stay, and the notice queue and the held reply stay whole. -/
structure LinkView.Kept (v w : LinkView) : Prop where
  factory : w.factory = v.factory
  pending : w.pending = v.pending
  queue : QueueOk v.link → QueueOk w.link
  reply : ReplyOk v.link → ReplyOk w.link

namespace LinkView.Kept
variable {u v w : LinkView}

theorem refl (v : LinkView) : v.Kept v := ⟨rfl, rfl, id, id⟩

theorem of_eq (h : w = v) : v.Kept w := h ▸ refl v

theorem trans (h : u.Kept v) (g : v.Kept w) : u.Kept w :=
  ⟨g.factory.trans h.factory, g.pending.trans h.pending, g.queue ∘ h.queue, g.reply ∘ h.reply⟩

end LinkView.Kept

/-! ### The operations that blocks share -/

namespace State
variable (s : State)

theorem setInhibitSet_linkView (c : Cell) (new : Byte) : (s.setInhibitSet c new).linkView = s.linkView := by
  rw [setInhibitSet_frame]
  rfl

theorem receiverDiode_linkView (r : Option Cell) : (s.receiverDiode r).linkView = s.linkView := by
  rw [receiverDiode_frame]
  rfl

theorem force_linkView (r : RecordId) (offset n : Nat) (w : Words) :
    (s.force r offset n w).linkView = s.linkView := by
  rw [force_frame]
  rfl

theorem setCopies_linkView (r : RecordId) (v : Copies) : (s.setCopies r v).linkView = s.linkView := by
  rw [setCopies_frame]
  rfl

theorem powerOnLoad_linkView : s.powerOnLoad.state.linkView = s.linkView := by
  unfold powerOnLoad
  rw [linkView, powerOnLoad_frame]
  rfl

end State

/-! What is kept up to a state is kept by an operation on it. -/

namespace LinkView.Kept
variable {v : LinkView} {s : State} (h : v.Kept s.linkView)
include h

theorem quiet {t : State} (e : t.linkView = s.linkView) : v.Kept t.linkView := h.trans (.of_eq e)

theorem notify {p : Payload} : v.Kept (s.notify p).linkView :=
  h.trans ⟨rfl, rfl, fun ok => ok.notify _ p,
    fun ok b hb => ok b (s.link.notify_reply s.alloc.frame.number p ▸ hb)⟩

theorem setFresh {n : Nat} : v.Kept (s.setFresh n).linkView := h

theorem setHanded {x : Handed} : v.Kept (s.setHanded x).linkView := h

/-- A reply frame in place of the reply held before (R199). -/
theorem holdReply {kind tag : Byte} {st : Status} {body : List Byte} (short : body.length ≤ 60) :
    v.Kept (s.holdReply (replyFrame kind tag st body)).linkView :=
  h.trans ⟨rfl, rfl, id, fun _ => replyOk_frame s.link kind tag st short⟩

/-- The supervisor is no part of the queue or of the held reply (R204). -/
theorem supervisor {x : Option Nat} : v.Kept (s.setLink { s.link with supervisor := x }).linkView :=
  h.trans ⟨rfl, rfl, id, id⟩

/-! ### Sequencers, protection and targets -/

theorem updateSeq {c : Cell} {new : SeqRecord} : v.Kept (s.updateSeq c new).linkView := by
  unfold State.updateSeq
  split
  · refine .notify ?_
    exact h
  · exact h

theorem takeEventSeq {c : Cell} {new : SeqRecord} : v.Kept (s.takeEventSeq c new).linkView := by
  refine .updateSeq ?_
  exact h

theorem handleSet {c : Cell} {m : MeasSet} : v.Kept (s.handleSet c m).linkView := by
  unfold State.handleSet
  dsimp only
  split
  · refine .setHanded (.updateSeq ?_)
    exact h
  · refine .updateSeq ?_
    exact h

theorem expireNow {c : Cell} : v.Kept (s.expireNow c).linkView := by
  refine .updateSeq ?_
  exact h

theorem setCeiling {x : Int} {c : Cell} : v.Kept (s.setCeiling x c).linkView := by
  refine .updateSeq ?_
  exact h

theorem notifyFaults {ks : List FaultKind} : v.Kept (s.notifyFaults ks).linkView := by
  unfold State.notifyFaults
  induction ks generalizing s with
  | nil => exact h
  | cons k ks ih => exact ih (.notify h)

theorem protectOn {m : MeasSet} : v.Kept (s.protectOn m).linkView := by
  unfold State.protectOn
  dsimp only
  split
  · refine .setHanded (.notifyFaults ?_)
    exact h
  · refine .notifyFaults ?_
    exact h

theorem takeTrip {c : Cell} : v.Kept (s.takeTrip c).linkView := by
  refine .notify ?_
  exact h

theorem setInhibitSet {c : Cell} {new : Byte} : v.Kept (s.setInhibitSet c new).linkView :=
  h.quiet (s.setInhibitSet_linkView c new)

theorem forEach {cells : List Cell} {f : Cell → State → State}
    (each : ∀ c (u : State), v.Kept u.linkView → v.Kept (f c u).linkView) :
    v.Kept (s.forEach cells f).linkView := by
  unfold State.forEach
  induction cells generalizing s with
  | nil => exact h
  | cons c cells ih => exact ih (each c s h)

/-! ### The input stage and the transfer -/

theorem moveInput {new : InputState} : v.Kept (s.moveInput new).linkView := by
  unfold State.moveInput
  dsimp only
  split
  · exact h
  · refine notify (s := s.setInput _) ?_
    exact h

theorem setReasons {new : SuspendReasons} : v.Kept (s.setReasons new).linkView := by
  rw [State.setReasons_eq]
  dsimp only
  split
  · refine .moveInput ?_
    exact h
  · split
    · refine .moveInput ?_
      exact h
    · exact h

theorem endTransfer {cause : EndCause} : v.Kept (s.endTransfer cause).linkView := by
  refine .notify ?_
  exact h

theorem endTransferOnEvent {cause : EndCause} : v.Kept (s.endTransferOnEvent cause).linkView := by
  unfold State.endTransferOnEvent
  split
  · exact .quiet (.endTransfer h) (State.receiverDiode_linkView _ _)
  · exact h

theorem checkTransfer {m : MeasSet} {delta : Int} : v.Kept (s.checkTransfer m delta).linkView := by
  unfold State.checkTransfer
  split
  · split
    · refine .endTransfer ?_
      exact h
    · exact h
  · exact h

theorem transferStep {m : MeasSet} {delta : Int} : v.Kept (s.transferStep m delta).linkView := by
  unfold State.transferStep
  dsimp only
  split
  · exact h
  · split
    · refine .checkTransfer ?_
      exact h
    · split <;> exact h

theorem holdTransfer : v.Kept s.holdTransfer.linkView := by
  unfold State.holdTransfer
  dsimp only
  split
  · refine .endTransfer ?_
    exact h
  · exact h

theorem publishFrame {f : FrameRecord} : v.Kept (s.publishFrame f).linkView := h

theorem takeFrame {m : MeasSet} : v.Kept (s.takeFrame m).linkView := by
  unfold State.takeFrame
  dsimp only
  split
  · refine .publishFrame (.transferStep ?_)
    exact h
  · refine .publishFrame (.holdTransfer ?_)
    exact h

/-! ### The revert (R205) -/

theorem revertSettings : v.Kept s.revertSettings.linkView := h

theorem revertInput : v.Kept s.revertInput.linkView := by
  unfold State.revertInput State.revertHost
  split
  · refine .revertSettings (.setReasons ?_)
    exact h
  · refine .setReasons ?_
    exact h

theorem revertTransfer {cause : EndCause} : v.Kept (s.revertTransfer cause).linkView := by
  unfold State.revertTransfer
  dsimp only
  split
  · exact h
  · refine .endTransferOnEvent ?_
    exact h

theorem revertTransferAfterGrant {first : Bool} : v.Kept (s.revertTransferAfterGrant first).linkView := by
  unfold State.revertTransferAfterGrant
  split
  · refine .revertTransfer ?_
    exact h
  · refine .revertTransfer ?_
    exact h

theorem revertInputAndTransfer : v.Kept s.revertInputAndTransfer.linkView := by
  unfold State.revertInputAndTransfer
  split
  · refine .revertTransferAfterGrant (.revertInput ?_)
    exact h
  · refine .revertInput (.revertTransfer ?_)
    exact h

theorem revertCeilings : v.Kept s.revertCeilings.linkView := .setCeiling (.setCeiling h)

theorem revertInhibits : v.Kept s.revertInhibits.linkView := .setInhibitSet (.setInhibitSet h)

theorem revert : v.Kept s.revert.linkView :=
  .setFresh (.revertInhibits (.revertCeilings (.revertInputAndTransfer h)))

/-! ### Tables and loads -/

theorem discardPending : v.Kept s.discardPending.linkView := h

theorem setCopies {r : RecordId} {k : Copies} : v.Kept (s.setCopies r k).linkView :=
  h.quiet (s.setCopies_linkView r k)

theorem bring {r : RecordId} {offset : Nat} {words : List Word} : v.Kept (s.bring r offset words).linkView :=
  h.quiet (s.force_linkView r _ _ _)

theorem promote {r : RecordId} {k : Copies} {source : ProfileSource} :
    v.Kept (s.promote r k source).linkView := by
  unfold State.promote
  dsimp only
  split
  · refine .notify (.setHanded (.setCopies ?_))
    exact h
  · refine .notify (.setCopies ?_)
    exact h

theorem loadRecords {rs : List RecordId} : v.Kept (s.loadRecords rs).state.linkView := by
  have one (o : LoadOutcome) (r : RecordId) (ok : v.Kept o.state.linkView) :
      v.Kept (o.take r).state.linkView := by
    unfold LoadOutcome.take
    dsimp only
    split
    · split
      · exact .promote ok
      · exact .bring ok
    · exact ok
  have each (rs : List RecordId) (o : LoadOutcome) (ok : v.Kept o.state.linkView) :
      v.Kept (rs.foldl LoadOutcome.take o).state.linkView := by
    induction rs generalizing o with
    | nil => exact ok
    | cons r rs ih => exact ih (o.take r) (one o r ok)
  exact each rs ⟨s, [], [], []⟩ h

end LinkView.Kept

end Sys2Proof.Machine
end

section
/-! PROOFS. Every command answers a next state in which the queue of commands and the factory block are as they were
and the notice queue and the held reply are whole (R188, R199 to R202); so does every step. -/

namespace Sys2Proof.Machine

/-! ### Answers (R199, R200) -/

/-- An answer keeps the link whole, and its body is at most 60 bytes long. -/
structure Answer.Fits (v : LinkView) (a : Answer) : Prop where
  kept : v.Kept a.state.linkView
  short : a.body.length ≤ 60

namespace Answer.Fits
variable {v : LinkView}

/-- An answer that changes nothing. -/
theorem stay {s : State} {st : Status} {body : List Byte} (h : body.length ≤ 60) :
    Answer.Fits s.linkView ⟨s, st, body⟩ := ⟨.refl _, h⟩

theorem reply {a : Answer} (h : a.Fits v) (kind tag : Byte) : v.Kept (a.reply kind tag).linkView :=
  .supervisor (.holdReply h.kept h.short)

end Answer.Fits

namespace State
variable (s : State)

/-! ### Requests that leave the state -/

theorem measure_fits (sect : Byte) : (s.measure sect).Fits s.linkView := by
  unfold measure
  split
  · exact .stay (by rw [measureValues_length]; decide)
  · split
    · exact .stay (by rw [measureRaw_length]; decide)
    · exact .stay (by decide)

theorem cellRecord_fits (cell sect : Byte) : (s.cellRecord cell sect).Fits s.linkView := by
  unfold cellRecord cellSection
  split
  · split
    · exact .stay (by rw [gaugeBody_length]; decide)
    · split
      · exact .stay (by rw [sequencerBody_length]; decide)
      · split
        · exact .stay (by rw [pathBody_length]; decide)
        · exact .stay (by decide)
  · exact .stay (by decide)

theorem faults_fits (sect : Byte) : (s.faults sect).Fits s.linkView := by
  unfold faults
  split
  · exact .stay (by rw [faultSummary_length]; decide)
  · split
    · exact .stay (by rw [faultHistory_length]; decide)
    · exact .stay (by decide)

theorem readSuspend_fits (func : Byte) : (s.readSuspend func).Fits s.linkView := by
  have short : s.inputBody.length ≤ 60 := by rw [inputBody_length]; decide
  unfold readSuspend
  split
  · exact .stay short
  · exact .stay short

theorem readBalance_fits (func : Byte) : (s.readBalance func).Fits s.linkView := by
  have short : s.balanceBody.length ≤ 60 := by rw [balanceBody_length]; decide
  unfold readBalance
  split
  · exact .stay short
  · exact .stay short

theorem readMask_fits (func : Byte) : (s.readMask func).Fits s.linkView := by
  have short : s.maskBody.length ≤ 60 := by rw [maskBody_length]; decide
  unfold readMask
  split
  · exact .stay short
  · exact .stay short

theorem inhibitBody_short (blocking : Byte) : (s.inhibitBody blocking).length ≤ 60 := by
  rw [inhibitBody_length]
  decide

theorem inhibitTest_fits (func target mask : Byte) : (s.inhibitTest func target mask).Fits s.linkView := by
  unfold inhibitTest
  split
  · split
    · exact .stay (s.inhibitBody_short _)
    · exact .stay (s.inhibitBody_short _)
  · exact .stay (s.inhibitBody_short _)

/-- The longest reply is that of 28 words read (R210). -/
theorem tableRead_fits (id offset count : Byte) : (s.tableRead id offset count).Fits s.linkView := by
  unfold tableRead
  split
  · exact .stay (by decide : 4 ≤ 60)
  · split
    · exact .stay (by decide : 4 ≤ 60)
    · rename_i few
      refine .stay ?_
      rw [List.length_append, readWords_length]
      show 4 + 2 * count.toNat ≤ 60
      omega

/-! ### Requests on the cells, the faults and the transfer -/

theorem ceiling_fits (target : Byte) (value : Word) : (s.ceiling target value).Fits s.linkView := by
  have short (t : State) : t.ceilingBody.length ≤ 60 := by rw [ceilingBody_length]; decide
  unfold ceiling
  split
  · exact ⟨.forEach (.refl _) fun _ _ h => .setCeiling h, short _⟩
  · exact .stay (short s)

theorem chargeRestart_fits (target : Byte) : (s.chargeRestart target).Fits s.linkView := by
  have short (t : State) : t.restartBody.length ≤ 60 := by rw [restartBody_length]; decide
  unfold chargeRestart
  split
  · split
    · exact .stay (short s)
    · exact ⟨.forEach (.refl _) fun _ _ h => .takeEventSeq h, short _⟩
  · exact .stay (short s)

theorem gaugeSeed_fits (target : Byte) : (s.gaugeSeed target).Fits s.linkView := by
  unfold gaugeSeed
  split
  · exact ⟨.forEach (.refl _) fun _ _ h => h, (by decide : 2 ≤ 60)⟩
  · exact .stay (by decide : 2 ≤ 60)

theorem acceptInhibit_fits (cells : List Cell) (f : Byte → Byte) : (s.acceptInhibit cells f).Fits s.linkView :=
  ⟨.forEach (.refl _) fun _ _ h => .setInhibitSet h, inhibitBody_short _ 0⟩

theorem claim_fits (cells : List Cell) (mask blocking : Byte) :
    (s.claim cells mask blocking).Fits s.linkView := by
  unfold claim
  split
  · exact s.acceptInhibit_fits cells _
  · exact .stay (s.inhibitBody_short _)

theorem placing_fits (target mask : Byte) {act : List Cell → Answer}
    (h : ∀ cells, (act cells).Fits s.linkView) : (s.placing target mask act).Fits s.linkView := by
  unfold placing
  split
  · split
    · exact .stay (s.inhibitBody_short 0)
    · exact h _
  · exact .stay (s.inhibitBody_short 0)

theorem inhibitClear_fits (target mask : Byte) : (s.inhibitClear target mask).Fits s.linkView := by
  unfold inhibitClear
  split
  · exact s.acceptInhibit_fits _ _
  · exact .stay (s.inhibitBody_short 0)

theorem inputBody_short : s.inputBody.length ≤ 60 := by
  rw [inputBody_length]
  decide

theorem hostSuspend_fits (present : Bool) : (s.hostSuspend present).Fits s.linkView :=
  ⟨.setReasons (.refl _), inputBody_short _⟩

theorem faultClear_fits (mask : Word) : (s.faultClear mask).Fits s.linkView := by
  unfold faultClear
  split
  · exact ⟨.refl _, (by decide : 6 ≤ 60)⟩
  · exact .stay (by decide : 6 ≤ 60)

theorem balanceBody_short : s.balanceBody.length ≤ 60 := by
  rw [balanceBody_length]
  decide

theorem disableTransfer_fits : s.disableTransfer.Fits s.linkView := by
  refine ⟨.endTransferOnEvent ?_, balanceBody_short _⟩
  exact .refl _

theorem cancelTransfer_fits : s.cancelTransfer.Fits s.linkView :=
  ⟨.endTransferOnEvent (.refl _), balanceBody_short _⟩

/-! ### Requests on the tables, the store and the link -/

/-- A TABLE-WRITE reply has six bytes (R211). -/
theorem writeRecord_fits (final : Bool) (id offset : Byte) (r : RecordId) (words : List Word) :
    (s.writeRecord final id offset r words).Fits s.linkView := by
  unfold writeRecord
  split
  · exact .stay (by decide : 6 ≤ 60)
  · split
    · split
      · exact ⟨.promote (.refl _), (by decide : 6 ≤ 60)⟩
      · exact ⟨.setCopies (.refl _), (by decide : 6 ≤ 60)⟩
    · exact ⟨.bring (.refl _), (by decide : 6 ≤ 60)⟩

theorem tableWrite_fits (final : Bool) (id offset flags : Byte) (words : List Word) :
    (s.tableWrite final id offset flags words).Fits s.linkView := by
  unfold tableWrite
  split
  · exact .stay (by decide : 6 ≤ 60)
  · split
    · exact .stay (by decide : 6 ≤ 60)
    · split
      · exact s.writeRecord_fits final id offset _ words
      all_goals exact .stay (by decide : 6 ≤ 60)

theorem storeBody_short : s.storeBody.length ≤ 60 := by
  rw [storeBody_length]
  decide

theorem storeRequest_fits (mask : Word) : (s.storeRequest mask).Fits s.linkView := by
  unfold storeRequest startStore
  split
  · exact .stay s.storeBody_short
  · refine ⟨?_, storeBody_short _⟩
    dsimp only [shows]
    split <;> exact .refl _

theorem loadRequest_fits (mask : Word) : (s.loadRequest mask).Fits s.linkView := by
  unfold loadRequest
  split
  · exact .stay (by rw [loadBody_length]; decide)
  · exact ⟨.loadRecords (.refl _), (by rw [loadBody_length]; decide)⟩

theorem cancelStore_fits : s.cancelStore.Fits s.linkView := by
  unfold cancelStore
  split
  · refine ⟨.refl _, ?_⟩
    dsimp only [shows]
    exact storeBody_short _
  · exact .stay s.storeBody_short

theorem fetchNotice_fits : s.fetchNotice.Fits s.linkView :=
  ⟨⟨rfl, rfl, fun ok => ok.sublist (List.tail_sublist _), id⟩, (fetchBody_length_le _).trans (by decide)⟩

theorem writeMask_fits (enabled : Word) : (s.writeMask enabled).Fits s.linkView := by
  unfold writeMask
  split
  · rename_i within
    exact ⟨⟨rfl, rfl, fun ok => ok.setMask within, id⟩, (by decide : 3 ≤ 60)⟩
  · exact .stay (by decide : 3 ≤ 60)

/-- The queue opened anew holds POWERUP alone, with every kind enabled (R206). -/
theorem softReset_fits : s.softReset.Fits s.linkView := by
  have opened : s.linkView.Kept s.reopenQueue.linkView := by
    unfold reopenQueue
    refine .notify ?_
    exact ⟨rfl, rfl, fun _ => .empty rfl rfl, id⟩
  unfold softReset
  exact ⟨.discardPending (.revert opened), (by decide : 0 ≤ 60)⟩

end State

/-! ### Every command -/

/-- A command answers a next state that keeps the link whole. -/
def LinkKeeping (s : State) (o : Result) : Prop := ∃ t, o = .next t ∧ s.linkView.Kept t.linkView

namespace LinkKeeping
variable {s t : State}

theorem next (h : s.linkView.Kept t.linkView) : LinkKeeping s (.next t) := ⟨t, rfl, h⟩

theorem quiet (h : t.linkView = s.linkView) : LinkKeeping s (.next t) := next (.of_eq h)

theorem stay : LinkKeeping s (.next s) := quiet rfl

theorem request {k : RequestKind} {tag : Byte} {act : State → Answer} (h : (act s).Fits s.linkView) :
    LinkKeeping s (s.request k tag act) := by
  by_cases hrun : s.phase = .running
  · rw [s.request_running k tag act hrun]
    exact next (h.reply k.code tag)
  · rw [s.request_closed k tag act hrun]
    exact stay

end LinkKeeping

section
variable (s : State)

/-! ### Power-on and time (R196, R207) -/

theorem powerOn_kept : s.linkView.Kept s.powerOn.linkView :=
  ⟨rfl, rfl, fun _ => .empty rfl rfl, fun _ => nofun⟩

theorem openUp_kept : s.linkView.Kept s.openUp.linkView :=
  ⟨rfl, rfl, fun _ => QueueOk.opening _ _, fun _ => nofun⟩

theorem tick_kept : s.linkView.Kept s.tick.linkView := ⟨rfl, rfl, id, id⟩

theorem execPowerOnLoad_linkKeeping : LinkKeeping s (execPowerOnLoad s) := by
  have brought := s.powerOnLoad_linkView
  unfold execPowerOnLoad
  generalize s.powerOnLoad = p at brought ⊢
  split
  · exact .quiet brought
  · exact .stay

/-! ### Commands that queue a notice -/

theorem execFullMark_linkKeeping (c : Cell) : LinkKeeping s (execFullMark c s) := by
  unfold execFullMark
  split
  · dsimp only
    split
    · refine .next (.notify ?_)
      exact .refl _
    · exact .quiet rfl
  · exact .stay

theorem execSafetyTimerExpiry_linkKeeping (c : Cell) : LinkKeeping s (execSafetyTimerExpiry c s) := by
  have expires : LinkKeeping s (.next (s.expireNow c)) := .next (.expireNow (.refl _))
  unfold execSafetyTimerExpiry
  split
  · split
    · refine .next (.handleSet ?_)
      exact .refl _
    · exact expires
  · exact expires

theorem execSeqInputWithdrawn_linkKeeping (c : Cell) : LinkKeeping s (execSeqInputWithdrawn c s) := by
  unfold execSeqInputWithdrawn
  split
  · dsimp only
    split
    · exact .quiet rfl
    · refine .next (.updateSeq ?_)
      exact .refl _
  · exact .stay
  · exact .stay

theorem execTransferEventEnd_linkKeeping (e : TransferEvent) : LinkKeeping s (execTransferEventEnd e s) := by
  unfold execTransferEventEnd
  split
  · dsimp only
    split
    · refine .next (.endTransferOnEvent ?_)
      exact .refl _
    · exact .quiet rfl
  · exact .stay

theorem execHingeFilterExpiry_linkKeeping (f : FoldSense) : LinkKeeping s (execHingeFilterExpiry f s) := by
  unfold execHingeFilterExpiry
  split
  · dsimp only
    split
    · refine .next (.setHanded (.notify ?_))
      exact .refl _
    · refine .next (.notify ?_)
      exact .refl _
  · exact .stay

theorem execRecordCompletion_linkKeeping : LinkKeeping s (execRecordCompletion s) := by
  unfold execRecordCompletion
  split
  · dsimp only
    split
    · exact .quiet rfl
    · refine .next (.notify ?_)
      exact .refl _
  · exact .stay

theorem execSupervisorExpiry_linkKeeping : LinkKeeping s (execSupervisorExpiry s) := by
  unfold execSupervisorExpiry
  split
  · exact .next (.revert (.notify (.supervisor (.refl _))))
  · exact .stay

/-! ### The transactions that are no request (R198, R200) -/

theorem execBadRequestFrame_linkKeeping (bytes : List Byte) : LinkKeeping s (execBadRequestFrame bytes s) := by
  unfold execBadRequestFrame
  split
  · exact .next (.holdReply (.refl _) (by decide))
  · exact .stay

theorem execUnknownRequest_linkKeeping (kind tag : Byte) (body : List Byte) :
    LinkKeeping s (execUnknownRequest kind tag body s) := by
  unfold execUnknownRequest
  split
  · exact .next (Answer.Fits.reply (.stay (by decide)) kind tag)
  · exact .stay

theorem execLengthError_linkKeeping (kind tag : Byte) (body : List Byte) :
    LinkKeeping s (execLengthError kind tag body s) := by
  unfold execLengthError
  split
  · exact .next (Answer.Fits.reply (.stay (by decide)) kind tag)
  · exact .stay

theorem execReadReply_linkKeeping (count : Nat) : LinkKeeping s (execReadReply count s) := by
  unfold execReadReply
  split
  · exact .next ⟨rfl, rfl, id, fun _ => nofun⟩
  · exact .stay

end

/-- Every command answers a next state that keeps the link whole. -/
theorem exec_linkKeeping (s : State) (i : Instr) : LinkKeeping s (exec i s) := by
  cases i with
  | powerOnReset => exact .next (powerOn_kept s)
  | powerOnLoad => exact execPowerOnLoad_linkKeeping s
  | powerOnLoadCompletion =>
    dsimp only [exec, execPowerOnLoadCompletion]
    split
    · exact .next (openUp_kept s)
    · exact .stay
  -- Whether the command takes place or not, another block's record alone has changed.
  | roundTimerExpiry | roundCompletion | counterSetSteps | grantsClearedOnWithdrawal | farGrantHingeCap
  | pathInputGranted | pathInputWithdrawn | pathHingeUnsettled | rampTimerExpiry | tripRearm | retryTimerExpiry
  | startupSampleExpiry =>
    dsimp only [exec, execRoundTimerExpiry, execRoundCompletion, execCounterSetSteps,
      execGrantsClearedOnWithdrawal, execFarGrantHingeCap, execPathInputGranted, execPathInputWithdrawn,
      execPathHingeUnsettled, execRampTimerExpiry, execTripRearm, execRetryTimerExpiry, execStartupSampleExpiry]
    split <;> exact .quiet rfl
  | pathOrderDelivery | pathRestrictionChange | inputSagDerateStep | foldRawChange =>
    dsimp only [exec, execPathOrderDelivery, execPathRestrictionChange, execInputSagDerateStep, execFoldRawChange]
    repeat' split
    all_goals exact .quiet rfl
  | comparatorRawChange => exact .quiet rfl
  | emptyWrite => exact .stay
  | sequencerSetHandling c =>
    dsimp only [exec, execSequencerSetHandling]
    split
    · refine .next (.handleSet ?_)
      exact .refl _
    · exact .stay
  | seqInputGranted c =>
    dsimp only [exec, execSeqInputGranted]
    split
    · refine .next (.takeEventSeq ?_)
      exact .refl _
    · exact .stay
    · exact .stay
  | seqInhibitEvent c | seqFaultReasonUpdate c | seqPromotion c =>
    dsimp only [exec, execSeqInhibitEvent, execSeqFaultReasonUpdate, execSeqPromotion]
    split
    · refine .next (.takeEventSeq ?_)
      exact .refl _
    · exact .stay
  | protectionSetReaction =>
    dsimp only [exec, execProtectionSetReaction]
    split
    · refine .next (.protectOn ?_)
      exact .refl _
    · exact .stay
  | overcurrentTrip c current =>
    dsimp only [exec, execOvercurrentTrip]
    split
    · refine .next (.takeTrip ?_)
      exact .refl _
    · exact .stay
  | allocationFrame =>
    dsimp only [exec, execAllocationFrame]
    split
    · refine .next (.takeFrame ?_)
      exact .refl _
    · exact .stay
  | dieSuspendReasonChange =>
    dsimp only [exec, execDieSuspendReasonChange]
    split
    · refine .next (.setReasons ?_)
      exact .refl _
    · exact .stay
  | attachFilterExpiry | qualificationExpiry =>
    dsimp only [exec, execAttachFilterExpiry, execQualificationExpiry]
    split
    · refine .next (.moveInput ?_)
      exact .refl _
    · exact .stay
  | settleTimerExpiry =>
    dsimp only [exec, execSettleTimerExpiry]
    split
    · refine .next (.notify ?_)
      exact .refl _
    · exact .stay
  | fullMark c => exact execFullMark_linkKeeping s c
  | safetyTimerExpiry c => exact execSafetyTimerExpiry_linkKeeping s c
  | seqInputWithdrawn c => exact execSeqInputWithdrawn_linkKeeping s c
  | transferEventEnd e => exact execTransferEventEnd_linkKeeping s e
  | hingeFilterExpiry f => exact execHingeFilterExpiry_linkKeeping s f
  | recordCompletion => exact execRecordCompletion_linkKeeping s
  | supervisorExpiry => exact execSupervisorExpiry_linkKeeping s
  | badRequestFrame bytes => exact execBadRequestFrame_linkKeeping s bytes
  | unknownRequest kind tag body => exact execUnknownRequest_linkKeeping s kind tag body
  | lengthError kind tag body => exact execLengthError_linkKeeping s kind tag body
  | readReply count => exact execReadReply_linkKeeping s count
  | identify tag =>
    exact LinkKeeping.request (act := fun t => t.shows t.identifyBody)
      (.stay (by rw [State.identifyBody_length]; decide))
  | status tag =>
    exact LinkKeeping.request (act := fun t => t.shows t.statusBody)
      (.stay (by rw [State.statusBody_length]; decide))
  | allocation tag =>
    exact LinkKeeping.request (act := fun t => t.shows t.allocationBody)
      (.stay (by rw [State.allocationBody_length]))
  | measure tag sect => exact .request (s.measure_fits sect)
  | cell tag cell sect => exact .request (s.cellRecord_fits cell sect)
  | faults tag sect => exact .request (s.faults_fits sect)
  | inputLimit tag ilim vfloor => exact .request ⟨.refl _, State.inputBody_short _⟩
  | inputSuspendRead tag func => exact .request (s.readSuspend_fits func)
  | inputSuspendSuspend | inputSuspendResume => exact .request (s.hostSuspend_fits _)
  | ceiling tag target value => exact .request (s.ceiling_fits target value)
  | inhibitSelect tag target mask | inhibitEmptySelect tag target mask =>
    exact .request (s.placing_fits target mask fun cells => s.claim_fits cells mask _)
  | inhibitSet tag target mask =>
    exact .request (s.placing_fits target mask fun cells => s.acceptInhibit_fits cells _)
  | inhibitClear tag target mask => exact .request (s.inhibitClear_fits target mask)
  | inhibitTest tag func target mask => exact .request (s.inhibitTest_fits func target mask)
  | faultClear tag mask => exact .request (s.faultClear_fits mask)
  | chargeRestart tag target => exact .request (s.chargeRestart_fits target)
  | gaugeSeed tag target => exact .request (s.gaugeSeed_fits target)
  | balanceRead tag func => exact .request (s.readBalance_fits func)
  | balanceEnable => exact .request ⟨.refl _, State.balanceBody_short _⟩
  | balanceDisable => exact .request s.disableTransfer_fits
  | balanceCancel => exact .request s.cancelTransfer_fits
  | tableRead tag id offset count => exact .request (s.tableRead_fits id offset count)
  | tableWrite tag id offset flags words | tableWriteFinal tag id offset flags words =>
    exact .request (s.tableWrite_fits _ id offset flags words)
  | store tag mask => exact .request (s.storeRequest_fits mask)
  | load tag mask => exact .request (s.loadRequest_fits mask)
  | storeCancel => exact .request s.cancelStore_fits
  | noticeFetch => exact .request s.fetchNotice_fits
  | noticeMaskRead tag func enabled => exact .request (s.readMask_fits func)
  | noticeMaskWrite tag enabled => exact .request (s.writeMask_fits enabled)
  | softReset => exact .request s.softReset_fits

/-- Settles O3: every command's next state keeps the queue of commands and the factory block. -/
theorem everyCommandAnswersANextState : Obligations.EveryCommandAnswersANextState := by
  unfold Obligations.EveryCommandAnswersANextState
  intro c s
  obtain ⟨t, answered, kept⟩ := exec_linkKeeping s c
  exact ⟨t, answered, kept.pending, kept.factory⟩

/-! ### Every step -/

/-- What holds of the link before a step and is kept by every command and by passing time holds after it. -/
theorem step_keeps_link {P : Link → Prop} (keeps : ∀ {v w : LinkView}, v.Kept w → P v.link → P w.link)
    {s t : State} (ok : P s.link) (h : step s = .next t) : P t.link := by
  cases hq : s.pending with
  | nil =>
    rw [step_empty s hq] at h
    injection h with h
    exact h ▸ keeps (tick_kept s) ok
  | cons i rest =>
    rw [step_cons s i rest hq] at h
    obtain ⟨u, answered, kept⟩ := exec_linkKeeping { s with pending := rest } i
    rw [answered] at h
    injection h with h
    exact h ▸ keeps kept ok

/-- Settles O50: every command keeps the notice queue, and so does passing time. -/
theorem queueHoldsOneEntryForAKind : Obligations.QueueHoldsOneEntryForAKind := by
  unfold Obligations.QueueHoldsOneEntryForAKind
  intro s t ok h
  exact step_keeps_link (P := QueueOk) (fun kept => kept.queue) ok h

/-- Settles O51: every command keeps the held reply, and so does passing time. -/
theorem heldReplyIsAWholeFrame : Obligations.HeldReplyIsAWholeFrame := by
  unfold Obligations.HeldReplyIsAWholeFrame
  intro s t ok h
  exact step_keeps_link (P := ReplyOk) (fun kept => kept.reply) ok h

end Sys2Proof.Machine
end

section
/-! PROOFS. A step with a command at the front, and the reply that every request is answered with (R199, R200, R204). -/

namespace Sys2Proof.Machine

/-- Settles O1: the front command runs on the state with the rest of the queue. -/
theorem stepRunsTheFrontCommand : Obligations.StepRunsTheFrontCommand := by
  unfold Obligations.StepRunsTheFrontCommand
  intro c s rest
  exact step_cons { s with pending := c :: rest } c rest rfl

/-- The supervisor counts HOST_TIMEOUT seconds in tenths of a millisecond, or is stopped for 0 (R204). -/
theorem supervisorTime_eq (n : Nat) : supervisorTime n = if n = 0 then none else some (10000 * n) := by
  unfold supervisorTime tenths
  rw [← Nat.mul_assoc]

/-- Settles O42: the frame closes with its check byte, and the supervisor takes HOST_TIMEOUT. -/
theorem replyIsHeldAndSupervisorRestarts : Obligations.ReplyIsHeldAndSupervisorRestarts := by
  unfold Obligations.ReplyIsHeldAndSupervisorRestarts
  intro a kind tag front seconds
  refine ⟨0 - byteSum front, byteSum_closed front, ?_⟩
  rw [← supervisorTime_eq seconds]
  exact a.reply_eq kind tag

end Sys2Proof.Machine
end

section
/-! PROOFS. The notice queue: how a notice joins it, and the requests that fetch notices and replace the enabled set
(R201 to R203). -/

namespace Sys2Proof.Machine

/-! ### A notice is queued or merged (R201) -/

theorem Payload.merge_fault (a b : Word) : (Payload.fault a).merge (.fault b) = .fault (a ||| b) := rfl

theorem Payload.merge_defaulted (a b : Word) :
    (Payload.defaulted a).merge (.defaulted b) = .defaulted (a ||| b) := rfl

/-- A payload of any other kind replaces that of the entry. -/
theorem Payload.merge_other (old : Payload) {new : Payload} (hfault : new.kind ≠ 5) (hdefaulted : new.kind ≠ 10) :
    old.merge new = new := by
  unfold Payload.merge
  split
  · exact absurd rfl hfault
  · exact absurd rfl hdefaulted
  · rfl

/-- Settles O44: a masked kind is left, a kind that is absent joins at the end, and one that is there merges. -/
theorem noticesQueueOrMerge : Obligations.NoticesQueueOrMerge := by
  unfold Obligations.NoticesQueueOrMerge
  intro l frame p
  refine ⟨l.notify_masked frame p, fun enabled absent => ?_, fun before e after enabled hq first same _ => ?_⟩
  · rw [l.notify_enabled_kind frame p enabled, enqueue_new p frame l.queue absent]
  · refine ⟨e.payload.merge p, ?_, ?_, ?_, e.payload.merge_other⟩
    · rw [l.notify_enabled_kind frame p enabled, hq, enqueue_merge p frame before after e first same,
        countUpTo_eq_min]
    · rintro a b he rfl
      rw [he, Payload.merge_fault]
    · rintro a b he rfl
      rw [he, Payload.merge_defaulted]

/-! ### NOTICE-FETCH and NOTICE-MASK (R202, R203) -/

/-- The kinds of notices are 1 to 12 (R202). -/
theorem maskWithin_notices (mask : Word) : maskWithin 1 12 mask = true ↔ mask &&& 0xE001 = 0 :=
  maskWithin_iff mask 1 12 0xE001 (by decide)

namespace State
variable (s : State)

theorem fetchNotice_empty (h : s.link.queue = []) : s.fetchNotice = ⟨s, .ok, [0, 0, 0, 0, 0]⟩ := by
  have same : s.setLink { s.link with queue := s.link.queue.tail } = s := by
    rw [h, List.tail_nil, ← h]
    rfl
  unfold fetchNotice
  rw [same, h]
  rfl

theorem fetchNotice_oldest {e : Entry} {rest : List Entry} (h : s.link.queue = e :: rest) :
    s.fetchNotice = ⟨{ s with link := { s.link with queue := rest } }, .ok, fetchBody (e :: rest)⟩ := by
  unfold fetchNotice
  rw [h]
  rfl

theorem writeMask_refused {enabled : Word} (h : enabled &&& 0xE001 ≠ 0) :
    s.writeMask enabled = s.badArg s.maskBody :=
  if_neg (mt (maskWithin_notices enabled).1 h)

theorem writeMask_taken {enabled : Word} (h : enabled &&& 0xE001 = 0) :
    s.writeMask enabled = (s.setLink (s.link.setMask enabled)).shows (s.setLink (s.link.setMask enabled)).maskBody :=
  if_pos ((maskWithin_notices enabled).2 h)

end State

/-- Settles O45: each request is carried out, the fetch by what the queue holds and the mask by its set. -/
theorem noticesAreFetchedAndMasked : Obligations.NoticesAreFetchedAndMasked := by
  unfold Obligations.NoticesAreFetchedAndMasked
  intro s tag enabled hrun
  have fetch : exec (.noticeFetch tag) s = .next (s.fetchNotice.reply 0x30 tag) :=
    s.request_running .noticeFetch tag State.fetchNotice hrun
  have read (func : Byte) : exec (.noticeMaskRead tag func enabled) s = .next ((s.readMask func).reply 0x31 tag) :=
    s.request_running .noticeMask tag (State.readMask func) hrun
  have write : exec (.noticeMaskWrite tag enabled) s = .next ((s.writeMask enabled).reply 0x31 tag) :=
    s.request_running .noticeMask tag (State.writeMask enabled) hrun
  refine ⟨fun hq => ?_, fun e rest hq => ?_, ?_, fun func hf => ?_, fun outside => ?_, fun within => ?_⟩
  · rw [fetch, s.fetchNotice_empty hq]
  · rw [fetch, s.fetchNotice_oldest hq]
    rfl
  · exact read 0
  · rw [read, State.readMask, if_neg hf]
    rfl
  · rw [write, s.writeMask_refused outside]
    rfl
  · rw [write, s.writeMask_taken within]
    rfl

end Sys2Proof.Machine
end

section
/-! PROOFS. The transactions that reach no block: empty writes, bad frames, unknown kinds, wrong lengths, reads, and
whatever comes before the power-on load is complete or goes to another address (R197, R198, R200). -/

namespace Sys2Proof.Machine
variable (s : State)

/-! ### Writes that spell no request (R197, R198) -/

/-- The REJECT reply to a bad frame (R198). -/
theorem replyFrame_reject (tag : Byte) :
    replyFrame 0x7F tag .frame [] = [0x7F, tag, 0x20, 0, 0 - (0x7F + tag + 0x20)] := by
  have sum : byteSum [0x7F, tag, 0x20, 0] = 0x7F + tag + 0x20 := by simp [byteSum]
  rw [← sum]
  rfl

theorem execBadRequestFrame_running (bytes : List Byte) (h : s.phase = .running) :
    execBadRequestFrame bytes s = .next { s with
      fresh := s.fresh + 1
      link := { s.link with
        reply := some [0x7F, bytes.getD 1 0, 0x20, 0, 0 - (0x7F + bytes.getD 1 0 + 0x20)] } } := by
  rw [execBadRequestFrame, if_pos h, replyFrame_reject, State.holdReply_eq]

/-- Before the power-on load is complete no write transaction does anything (R197). -/
theorem exec_write_closed {i : Instr} {bytes : List Byte} (h : s.phase ≠ .running) (hi : encode i = some bytes) :
    exec i s = .next s := by
  cases i with
  | emptyWrite => rfl
  -- Every other write transaction asks for the phase first.
  | badRequestFrame | unknownRequest | lengthError | identify | status | measure | cell | allocation | faults
  | inputLimit | inputSuspendRead | inputSuspendSuspend | inputSuspendResume | ceiling | inhibitSelect
  | inhibitSet | inhibitClear | inhibitTest | inhibitEmptySelect | faultClear | chargeRestart | gaugeSeed
  | balanceRead | balanceEnable | balanceDisable | balanceCancel | tableRead | tableWrite | tableWriteFinal
  | store | load | storeCancel | noticeFetch | noticeMaskRead | noticeMaskWrite | softReset => exact if_neg h
  | _ => cases hi

/-! ### Reads (R200) -/

theorem readBytes_length (frame : List Byte) (n : Nat) : (readBytes frame n).length = n := by
  simp [readBytes]

/-- A byte of a read is that of the frame, or 0x00 past its end. -/
theorem readBytes_getD (frame : List Byte) {n i : Nat} (h : i < n) :
    (readBytes frame n).getD i 0 = frame.getD i 0 := by
  rw [readBytes, List.getD_eq_getElem?_getD, List.getElem?_take_of_lt h, List.getElem?_append]
  split
  · rw [List.getD_eq_getElem?_getD]
  · rename_i past
    rw [List.getD_eq_default _ _ (Nat.le_of_not_lt past), List.getElem?_replicate]
    split <;> rfl

theorem noneReply_eq : noneReply = [0, 0, 0, 0, 0] := by decide

theorem execReadReply_running (n : Nat) (h : s.phase = .running) :
    execReadReply n s = .next { s with link := { s.link with
      reply := none, lastRead := readBytes (s.link.reply.getD [0, 0, 0, 0, 0]) n } } := by
  rw [execReadReply, if_pos h, noneReply_eq]
  rfl

/-! ### Addresses (R197) -/

theorem transaction_addressed {address : BitVec 7} (h : address.toNat = s.factory.linkAddr) (i : Instr) :
    s.transaction address i = { s with pending := s.pending ++ [i] } :=
  if_pos (beq_iff_eq.2 h)

theorem transaction_elsewhere {address : BitVec 7} (h : address.toNat ≠ s.factory.linkAddr) (i : Instr) :
    s.transaction address i = s :=
  if_neg (mt beq_iff_eq.1 h)

/-- Settles O43: each transaction by the phase of the part, and by the address it carries. -/
theorem transactionsThatReachNoBlock : Obligations.TransactionsThatReachNoBlock := by
  unfold Obligations.TransactionsThatReachNoBlock
  refine ⟨fun s => ⟨rfl, execBadRequestFrame_running s, fun kind tag body hrun => ⟨if_pos hrun, if_pos hrun⟩,
      fun i bytes => exec_write_closed s, fun n h => if_neg h⟩,
    fun s n hrun => ⟨_, execReadReply_running s n hrun, rfl, readBytes_length _ n, fun i => readBytes_getD _⟩,
    fun s address bytes n => ⟨fun own => ?_, fun other => ?_⟩⟩
  · exact ⟨transaction_addressed s own _, transaction_addressed s own _⟩
  · exact ⟨transaction_elsewhere s other _, transaction_elsewhere s other _⟩

end Sys2Proof.Machine
end

section
/-! PROOFS. The bytes of a request frame spell the request again: words and bytes, the checks of a frame, and the
kinds with their functions and flags (R198, R211, R212). -/

namespace Sys2Proof.Machine

/-! ### Words and bytes (R212) -/

/-- The two bytes of a word give it back. -/
theorem wordOf_bytes (w : Word) : wordOf (w.extractLsb' 0 8) (w.extractLsb' 8 8) = w :=
  BitVec.extractLsb'_append_extractLsb'_eq_extractLsb' rfl |>.trans BitVec.extractLsb'_eq_self

theorem wordsOf_bytesOf (ws : List Word) : wordsOf (bytesOf ws) = ws := by
  induction ws with
  | nil => rfl
  | cons w ws ih =>
    show wordOf (w.extractLsb' 0 8) (w.extractLsb' 8 8) :: wordsOf (bytesOf ws) = w :: ws
    rw [wordOf_bytes, ih]

theorem bytesOf_length (ws : List Word) : (bytesOf ws).length = 2 * ws.length := by
  induction ws with
  | nil => rfl
  | cons w ws ih =>
    rw [bytesOf, List.length_append, le16_length, ih, List.length_cons]
    omega

/-! ### Frames (R198) -/

/-- A request frame passes its four checks. -/
theorem frameGood_requestFrame (kind tag : Byte) {body : List Byte} (h : body.length ≤ 60) :
    frameGood (requestFrame kind tag body) = true := by
  have len : ((requestFrame kind tag body).getD 2 0).toNat = body.length := by
    show (BitVec.ofNat 8 body.length).toNat = body.length
    rw [BitVec.toNat_ofNat]
    omega
  have whole : (requestFrame kind tag body).length = body.length + 4 := by simp [requestFrame]
  have sum : byteSum (requestFrame kind tag body) = 0 := byteSum_closed _
  simp only [frameGood, len, whole, sum, Bool.and_eq_true, decide_eq_true_eq, beq_self_eq_true, and_true]
  omega

theorem decodeWrite_requestFrame (kind tag : Byte) {body : List Byte} (h : body.length ≤ 60) :
    decodeWrite (requestFrame kind tag body) = decodeRequest kind tag body := by
  have good := frameGood_requestFrame kind tag h
  have split : requestFrame kind tag body = kind :: tag :: BitVec.ofNat 8 body.length ::
      (body ++ [0 - byteSum (kind :: tag :: BitVec.ofNat 8 body.length :: body)]) := rfl
  rw [split] at good ⊢
  rw [decodeWrite, if_pos good, List.dropLast_concat]

/-- Bytes that fail a check are a bad frame. -/
theorem decodeWrite_bad {bytes : List Byte} (hne : bytes ≠ []) (hbad : frameGood bytes = false) :
    decodeWrite bytes = .badRequestFrame bytes := by
  unfold decodeWrite
  split
  · exact absurd rfl hne
  · rw [hbad]
    rfl
  · rfl

theorem ofCode_code (k : RequestKind) : RequestKind.ofCode k.code = some k := by cases k <;> rfl

/-- A frame of a kind is the request that its body spells. -/
theorem decodeWrite_request (k : RequestKind) {tag : Byte} {body bytes : List Byte} {i : Instr}
    (sent : some (requestFrame k.code tag body) = some bytes) (spelt : requestOf k tag body = some i)
    (short : body.length ≤ 60) : decodeWrite bytes = i := by
  obtain rfl := Option.some.inj sent
  rw [decodeWrite_requestFrame k.code tag short, decodeRequest, ofCode_code]
  show (requestOf k tag body).getD _ = i
  rw [spelt, Option.getD_some]

/-! ### Requests with functions and flags (R100, R142, R180, R202, R211) -/

theorem inputSuspendRequest_read (tag : Byte) {func : Byte} (h1 : func ≠ 1) (h2 : func ≠ 2) :
    inputSuspendRequest tag func = .inputSuspendRead tag func := by
  rw [inputSuspendRequest, if_neg h1, if_neg h2]

theorem inhibitRequest_test (tag target mask : Byte) {func : Byte}
    (h0 : func ≠ 0) (h1 : func ≠ 1) (h2 : func ≠ 2) (h4 : func ≠ 4) :
    inhibitRequest tag func target mask = .inhibitTest tag func target mask := by
  rw [inhibitRequest, if_neg h0, if_neg h1, if_neg h2, if_neg h4]

theorem balanceRequest_read (tag : Byte) {func : Byte} (h1 : func ≠ 1) (h2 : func ≠ 2) (h3 : func ≠ 3) :
    balanceRequest tag func = .balanceRead tag func := by
  rw [balanceRequest, if_neg h1, if_neg h2, if_neg h3]

theorem noticeMaskRequest_read (tag : Byte) {func : Byte} (enabled : Word) (h : func ≠ 1) :
    noticeMaskRequest tag func enabled = .noticeMaskRead tag func enabled := if_neg h

/-- A TABLE-WRITE body spells its words, with the command that the final flag names. -/
theorem requestOf_tableWrite (tag id offset flags : Byte) {words : List Word} (h : words.length ≤ 28) :
    requestOf .tableWrite tag (id :: offset :: flags :: BitVec.ofNat 8 words.length :: bytesOf words)
      = some (tableWriteRequest tag id offset flags words) := by
  have count : (bytesOf words).length = 2 * (BitVec.ofNat 8 words.length).toNat := by
    rw [bytesOf_length, BitVec.toNat_ofNat]
    omega
  refine (if_pos count).trans ?_
  rw [wordsOf_bytesOf]

theorem tableWriteBody_length (id offset flags : Byte) {words : List Word} (h : words.length ≤ 28) :
    (id :: offset :: flags :: BitVec.ofNat 8 words.length :: bytesOf words).length ≤ 60 := by
  simp only [List.length_cons, bytesOf_length]
  omega

/-- Settles O48: each command's frame by its kind, with the words, the function or the flag that its body carries. -/
theorem decodeOfEncodeIsTheCommand : Obligations.DecodeOfEncodeIsTheCommand := by
  unfold Obligations.DecodeOfEncodeIsTheCommand
  intro i bytes hwf hi
  cases i with
  | emptyWrite =>
    obtain rfl := Option.some.inj hi
    rfl
  | badRequestFrame sent =>
    obtain rfl := Option.some.inj hi
    obtain ⟨hne, hbad⟩ : sent ≠ [] ∧ frameGood sent = false := by simpa [Instr.wf] using hwf
    exact decodeWrite_bad hne hbad
  | unknownRequest kind tag body =>
    obtain rfl := Option.some.inj hi
    obtain ⟨hkind, short⟩ : RequestKind.ofCode kind = none ∧ body.length ≤ 60 := by simpa [Instr.wf] using hwf
    rw [decodeWrite_requestFrame kind tag short, decodeRequest, hkind]
  | lengthError kind tag body =>
    obtain rfl := Option.some.inj hi
    cases hkind : RequestKind.ofCode kind with
    | none => simp [Instr.wf, hkind] at hwf
    | some k =>
      obtain ⟨short, wrong⟩ : body.length ≤ 60 ∧ requestOf k tag body = none := by
        simpa [Instr.wf, hkind] using hwf
      rw [decodeWrite_requestFrame kind tag short, decodeRequest, hkind]
      show (requestOf k tag body).getD _ = _
      rw [wrong, Option.getD_none]
  -- Bodies of bytes alone, with no function to tell apart.
  | identify tag => exact decodeWrite_request .identify hi rfl (by decide)
  | status tag => exact decodeWrite_request .status hi rfl (by decide)
  | measure tag sect => exact decodeWrite_request .measure hi rfl (by decide : 1 ≤ 60)
  | cell tag c sect => exact decodeWrite_request .cell hi rfl (by decide : 2 ≤ 60)
  | allocation tag => exact decodeWrite_request .allocation hi rfl (by decide)
  | faults tag sect => exact decodeWrite_request .faults hi rfl (by decide : 1 ≤ 60)
  | chargeRestart tag target => exact decodeWrite_request .chargeRestart hi rfl (by decide : 1 ≤ 60)
  | gaugeSeed tag target => exact decodeWrite_request .gaugeSeed hi rfl (by decide : 1 ≤ 60)
  | tableRead tag id offset count => exact decodeWrite_request .tableRead hi rfl (by decide : 3 ≤ 60)
  | storeCancel tag => exact decodeWrite_request .storeCancel hi rfl (by decide)
  | noticeFetch tag => exact decodeWrite_request .noticeFetch hi rfl (by decide)
  | softReset tag => exact decodeWrite_request .softReset hi rfl (by decide)
  -- Functions with a code.
  | inputSuspendSuspend tag | inputSuspendResume tag => exact decodeWrite_request .inputSuspend hi rfl (by decide)
  | inhibitSelect tag target mask | inhibitSet tag target mask | inhibitClear tag target mask
  | inhibitEmptySelect tag target mask => exact decodeWrite_request .inhibit hi rfl (by decide : 3 ≤ 60)
  | balanceEnable tag | balanceDisable tag | balanceCancel tag =>
    exact decodeWrite_request .balance hi rfl (by decide)
  -- The READ and TEST rows, with any other function value (log 20).
  | inputSuspendRead tag func =>
    obtain ⟨h1, h2⟩ : func ≠ 1 ∧ func ≠ 2 := by simpa [Instr.wf] using hwf
    exact decodeWrite_request .inputSuspend hi (congrArg some (inputSuspendRequest_read tag h1 h2))
      (by decide : 1 ≤ 60)
  | inhibitTest tag func target mask =>
    obtain ⟨⟨⟨h0, h1⟩, h2⟩, h4⟩ : ((func ≠ 0 ∧ func ≠ 1) ∧ func ≠ 2) ∧ func ≠ 4 := by
      simpa [Instr.wf] using hwf
    exact decodeWrite_request .inhibit hi (congrArg some (inhibitRequest_test tag target mask h0 h1 h2 h4))
      (by decide : 3 ≤ 60)
  | balanceRead tag func =>
    obtain ⟨⟨h1, h2⟩, h3⟩ : (func ≠ 1 ∧ func ≠ 2) ∧ func ≠ 3 := by simpa [Instr.wf] using hwf
    exact decodeWrite_request .balance hi (congrArg some (balanceRequest_read tag h1 h2 h3))
      (by decide : 1 ≤ 60)
  -- Bodies with words.
  | inputLimit tag ilim vfloor =>
    have spelt : requestOf .inputLimit tag (le16 ilim ++ le16 vfloor) = some (.inputLimit tag ilim vfloor) :=
      congrArg some (congrArg₂ (Instr.inputLimit tag) (wordOf_bytes ilim) (wordOf_bytes vfloor))
    exact decodeWrite_request .inputLimit hi spelt (by decide : 4 ≤ 60)
  | ceiling tag target value =>
    have spelt : requestOf .ceiling tag (target :: le16 value) = some (.ceiling tag target value) :=
      congrArg (fun w => some (Instr.ceiling tag target w)) (wordOf_bytes value)
    exact decodeWrite_request .ceiling hi spelt (by decide : 3 ≤ 60)
  | faultClear tag mask =>
    have spelt : requestOf .faultClear tag (le16 mask) = some (.faultClear tag mask) :=
      congrArg (fun w => some (Instr.faultClear tag w)) (wordOf_bytes mask)
    exact decodeWrite_request .faultClear hi spelt (by decide : 2 ≤ 60)
  | store tag mask =>
    have spelt : requestOf .store tag (le16 mask) = some (.store tag mask) :=
      congrArg (fun w => some (Instr.store tag w)) (wordOf_bytes mask)
    exact decodeWrite_request .store hi spelt (by decide : 2 ≤ 60)
  | load tag mask =>
    have spelt : requestOf .load tag (le16 mask) = some (.load tag mask) :=
      congrArg (fun w => some (Instr.load tag w)) (wordOf_bytes mask)
    exact decodeWrite_request .load hi spelt (by decide : 2 ≤ 60)
  | noticeMaskWrite tag enabled =>
    have spelt : requestOf .noticeMask tag (1 :: le16 enabled) = some (.noticeMaskWrite tag enabled) :=
      congrArg (fun w => some (Instr.noticeMaskWrite tag w)) (wordOf_bytes enabled)
    exact decodeWrite_request .noticeMask hi spelt (by decide : 3 ≤ 60)
  | noticeMaskRead tag func enabled =>
    have h1 : func ≠ 1 := by simpa [Instr.wf] using hwf
    have spelt : requestOf .noticeMask tag (func :: le16 enabled) = some (.noticeMaskRead tag func enabled) := by
      rw [← noticeMaskRequest_read tag enabled h1]
      exact congrArg (fun w => some (noticeMaskRequest tag func w)) (wordOf_bytes enabled)
    exact decodeWrite_request .noticeMask hi spelt (by decide : 3 ≤ 60)
  -- TABLE-WRITE by its final flag.
  | tableWrite tag id offset flags words =>
    obtain ⟨final, few⟩ : flags.getLsbD 0 = false ∧ words.length ≤ 28 := by simpa [Instr.wf] using hwf
    have spelt := requestOf_tableWrite tag id offset flags few
    rw [tableWriteRequest, final] at spelt
    exact decodeWrite_request .tableWrite hi spelt (tableWriteBody_length id offset flags few)
  | tableWriteFinal tag id offset flags words =>
    obtain ⟨final, few⟩ : flags.getLsbD 0 = true ∧ words.length ≤ 28 := by simpa [Instr.wf] using hwf
    have spelt := requestOf_tableWrite tag id offset flags few
    rw [tableWriteRequest, final] at spelt
    exact decodeWrite_request .tableWrite hi spelt (tableWriteBody_length id offset flags few)
  | _ => cases hi

end Sys2Proof.Machine
end

section
/-! PROOFS. The completion of the power-on load, and the store operation: the slots that it writes, and the requests
that start and cancel it (R144, R189 to R193, R196, R207). -/

namespace Sys2Proof.Machine

/-- Settles O6: every block takes what the load has brought into force. -/
theorem powerOnLoadCompletionOpensThePart : Obligations.PowerOnLoadCompletionOpensThePart := by
  unfold Obligations.PowerOnLoadCompletionOpensThePart
  intro s loaded
  have opened : exec .powerOnLoadCompletion s = .next s.openUp := if_pos loaded
  rw [opened]
  rfl

/-! ### Record writes (R189, R192) -/

/-- The check word of a written slot makes the sum 0. -/
theorem writtenSlot_sum (r : RecordId) (ws : List Word) :
    (writtenSlot r ws).id + (writtenSlot r ws).count + wordSum (writtenSlot r ws).words
      + (writtenSlot r ws).check = 0 := by
  dsimp only [writtenSlot]
  rw [BitVec.add_comm, BitVec.sub_add_cancel]

section
variable {s : State} {w : Writing}

/-- A record is written, and another one is still to be written. -/
theorem execRecordCompletion_goesOn (h : s.store.state = .writing w) {next : RecordId} {rest : List RecordId}
    (hc : w.cancel = false) (ht : w.todo = next :: rest) :
    execRecordCompletion s = .next { s with store := { s.store with
      slots := (s.store.slots.set w.inFlight
        (writtenSlot w.inFlight (snapshotWords w.snapshot w.inFlight))).set next (erasedSlot next)
      state := .writing { w with
        inFlight := next, todo := rest, completed := w.completed ++ [w.inFlight] } } } := by
  simp only [execRecordCompletion, h, hc, ht]
  rfl

/-- The last record is written, or the last before a cancel. -/
theorem execRecordCompletion_ends (h : s.store.state = .writing w) (hlast : w.cancel = true ∨ w.todo = []) :
    execRecordCompletion s = .next { s with
      store := { s.store with
        slots := s.store.slots.set w.inFlight
          (writtenSlot w.inFlight (snapshotWords w.snapshot w.inFlight))
        state := .idle }
      link := s.link.notify s.alloc.frame.number
        (.store (recordSet (w.completed ++ [w.inFlight])) w.cancel) } := by
  simp only [execRecordCompletion, h]
  split
  · rename_i next rest hc ht
    rw [hc, ht] at hlast
    simp at hlast
  · rfl

end

/-! ### What is refused (R191, R195) -/

/-- The stored records are 1 to 8 (R189). -/
theorem maskWithin_records (mask : Word) : maskWithin 1 8 mask = true ↔ mask &&& 0xFE01 = 0 :=
  maskWithin_iff mask 1 8 0xFE01 (by decide)

namespace State
variable {s : State}

theorem storeRefusal_idle (h : s.store.state = .idle) (mask : Word) :
    s.storeRefusal mask = if mask &&& 0xFE01 = 0 then none else some .badArg := by
  have idle : s.writing = false := by rw [writing, h]
  simp only [storeRefusal, idle, maskWithin_records, Bool.false_and, Bool.false_eq_true, if_false]

theorem storeRefusal_writing {w : Writing} (h : s.store.state = .writing w) {mask : Word}
    (within : mask &&& 0xFE01 = 0) : s.storeRefusal mask = some .busy := by
  have runs : s.writing = true := by rw [writing, h]
  rw [storeRefusal, if_pos ((maskWithin_records mask).2 within), if_pos runs]

/-- Which refusal comes first is free (log 6). -/
theorem storeRefusal_outside {mask : Word} (outside : mask &&& 0xFE01 ≠ 0) :
    s.storeRefusal mask = some .busy ∨ s.storeRefusal mask = some .badArg := by
  rw [storeRefusal, if_neg (mt (maskWithin_records mask).1 outside)]
  split
  · exact .inl rfl
  · exact .inr rfl

/-! ### STORE and STORE-CANCEL (R191, R193) -/

theorem storeRequest_refused {mask : Word} {why : Status} (h : s.storeRefusal mask = some why) :
    s.storeRequest mask = ⟨s, why, s.storeBody⟩ := by
  rw [storeRequest, h]

theorem storeRequest_taken {mask : Word} (h : s.storeRefusal mask = none) :
    s.storeRequest mask
      = ⟨s.startStore (recordsIn mask), .ok, (s.startStore (recordsIn mask)).storeBody⟩ := by
  rw [storeRequest, h]
  rfl

theorem cancelStore_idle (h : s.store.state = .idle) : s.cancelStore = ⟨s, .abort, s.storeBody⟩ := by
  rw [cancelStore, h]

/-- A cancel keeps what is written, and leaves nothing to be written. -/
theorem cancelStore_writing {w : Writing} (h : s.store.state = .writing w) :
    s.cancelStore =
      (s.setStore { s.store with state := .writing w.cancelled }).shows
        (s.setStore { s.store with state := .writing w.cancelled }).storeBody := by
  rw [cancelStore, h]

end State

/-- Settles O38: a record's completion by what is left to write, and the requests by the state of the store. -/
theorem storeWritesASnapshot : Obligations.StoreWritesASnapshot := by
  unfold Obligations.StoreWritesASnapshot
  refine ⟨fun s w hw => ?_, fun s tag mask hrun => ?_⟩
  · have sum := writtenSlot_sum w.inFlight (snapshotWords w.snapshot w.inFlight)
    cases hc : w.cancel with
    | true =>
      exact ⟨_, _, execRecordCompletion_ends hw (.inl hc), rfl, rfl, rfl, rfl, sum, rfl, rfl, rfl, hc ▸ rfl⟩
    | false =>
      cases ht : w.todo with
      | nil =>
        exact ⟨_, _, execRecordCompletion_ends hw (.inr ht), rfl, rfl, rfl, rfl, sum, rfl, rfl, rfl, hc ▸ rfl⟩
      | cons next rest =>
        exact ⟨_, _, execRecordCompletion_goesOn hw hc ht, rfl, rfl, rfl, rfl, sum, rfl, hc ▸ rfl,
          rfl, rfl⟩
  · intro answered
    have store : exec (.store tag mask) s = .next ((s.storeRequest mask).reply 0x22 tag) :=
      s.request_running .store tag (State.storeRequest mask) hrun
    have cancel : exec (.storeCancel tag) s = .next (s.cancelStore.reply 0x24 tag) :=
      s.request_running .storeCancel tag State.cancelStore hrun
    have refused {why : Status} (h : s.storeRefusal mask = some why) :
        answered (.store tag mask) 0x22 s why := by
      dsimp only [answered]
      rw [store, State.storeRequest_refused h]
    refine ⟨fun idle => ⟨?_, fun outside => ?_, ?_, fun r rest within named => ?_⟩, fun w hw => ⟨?_, ?_, ?_⟩⟩
    · dsimp only [answered]
      rw [cancel, State.cancelStore_idle idle]
    · exact refused ((State.storeRefusal_idle idle mask).trans (if_neg outside))
    · rintro rfl
      dsimp only [answered]
      rw [store, State.storeRequest_taken (State.storeRefusal_idle idle 0)]
      rfl
    · have free := (State.storeRefusal_idle idle mask).trans (if_pos within)
      dsimp only [answered]
      rw [store, State.storeRequest_taken free, named]
      rfl
    · exact fun within => refused (State.storeRefusal_writing hw within)
    · exact fun outside => (State.storeRefusal_outside outside).imp refused refused
    · dsimp only [answered]
      rw [cancel, State.cancelStore_writing hw]
      rfl

end Sys2Proof.Machine
end

section
/-! PROOFS. What comes into force with the words of a table 4..8, and what a promotion of a copy leaves (R36, R47 to
R52, R115, R165, R190). -/

namespace Sys2Proof.Machine

theorem covers_iff {offset n i : Nat} : covers offset n i = true ↔ offset ≤ i ∧ i < offset + n := by
  simp only [covers, Bool.and_eq_true, decide_eq_true_eq]

/-! ### The tables that one record leaves -/

/-- What belongs to the table of a record is the same in both states: its words and copies, and what comes into force
with them (R36, R115, R165). -/
structure Untouched (r : RecordId) (s t : State) : Prop where
  words : t.recordWords r = s.recordWords r
  copies : t.copiesOf r = s.copiesOf r
  counter : r = .gauge → t.counter = s.counter
  path : r = .limits → t.path = s.path
  prot : r = .protect → t.prot = s.prot ∧ t.handed = s.handed

namespace Untouched
variable {r : RecordId} {s t u : State}

theorem refl (s : State) : Untouched r s s := ⟨rfl, rfl, fun _ => rfl, fun _ => rfl, fun _ => ⟨rfl, rfl⟩⟩

theorem trans (h : Untouched r s t) (g : Untouched r t u) : Untouched r s u where
  words := g.words.trans h.words
  copies := g.copies.trans h.copies
  counter is := (g.counter is).trans (h.counter is)
  path is := (g.path is).trans (h.path is)
  prot is := ⟨(g.prot is).1.trans (h.prot is).1, (g.prot is).2.trans (h.prot is).2⟩

end Untouched

theorem State.setCopies_untouched (s : State) {q r : RecordId} (v : Copies) (other : q ≠ r) :
    Untouched q s (s.setCopies r v) := by
  refine ⟨?_, ?_, fun _ => ?_, fun _ => ?_, fun _ => ?_⟩
  case refine_1 | refine_2 =>
    cases r <;> cases q <;> first | rfl | exact absurd rfl other
  all_goals rw [s.setCopies_frame]
  exact ⟨rfl, rfl⟩

/-! ### GAUGE (R36) -/

/-- The CAP words of a table of GAUGE are those in force where a write does not cover them. -/
structure State.CapsStay (s : State) (offset n : Nat) (new : Words) : Prop where
  near : covers offset n 0 = false → new.at 0 = s.counter.near.cap
  far : covers offset n 1 = false → new.at 1 = s.counter.far.cap
  both : 2 ≤ new.length

theorem capWritten_cap (covered : Bool) (cap : Int) (c : CounterRecord) :
    (capWritten covered cap c).cap = if covered then cap else c.cap := by
  cases covered <;> rfl

theorem capWritten_covers (offset n i : Nat) (cap : Int) (old : CounterRecord) :
    if offset ≤ i ∧ i < offset + n then capWritten (covers offset n i) cap old = old.setCap cap
    else capWritten (covers offset n i) cap old = old := by
  split
  · rename_i covered
    exact if_pos (covers_iff.2 covered)
  · rename_i missed
    exact if_neg (mt covers_iff.1 missed)

namespace State
variable (s : State) (offset n : Nat) (new : Words)

theorem broughtIn_capsStay (words : List Word) :
    s.CapsStay offset words.length (s.broughtIn .gauge offset words).1 where
  near := by
    match offset, words with
    | 0, [] => exact fun _ => rfl
    | 0, a :: rest => exact nofun
    | k + 1, words => exact fun _ => rfl
  far := by
    match offset, words with
    | 0, [] => exact fun _ => rfl
    | 0, [a] => exact fun _ => rfl
    | 0, a :: b :: rest => exact nofun
    | 1, [] => exact fun _ => rfl
    | 1, a :: rest => exact fun h => absurd (covers_iff.2 ⟨le_rfl, by simp⟩) (Bool.eq_false_iff.1 h)
    | k + 2, words => exact fun _ => rfl
  both := by
    simp only [broughtIn, recordWords, gaugeWords, Words.splice, List.length_append, List.length_take,
      List.length_drop, List.length_cons]
    omega

variable {offset n new}

theorem forceGauge_recordWords (h : s.CapsStay offset n new) :
    (s.forceGauge offset n new).recordWords .gauge = new := by
  obtain ⟨near, far, both⟩ := h
  match new, both with
  | a :: b :: ocv, _ =>
    have hnear : (if covers offset n 0 then a else s.counter.near.cap) = a := by
      cases hc : covers offset n 0 with
      | true => rfl
      | false => exact (near hc).symm
    have hfar : (if covers offset n 1 then b else s.counter.far.cap) = b := by
      cases hc : covers offset n 1 with
      | true => rfl
      | false => exact (far hc).symm
    calc (s.forceGauge offset n (a :: b :: ocv)).recordWords .gauge
        = (capWritten (covers offset n 0) a s.counter.near).cap
            :: (capWritten (covers offset n 1) b s.counter.far).cap :: ocv := rfl
      _ = a :: b :: ocv := by rw [capWritten_cap, capWritten_cap, hnear, hfar]

variable (offset n new)

theorem forceGauge_capsForced : CapsForced s offset n new (s.forceGauge offset n new) := by
  intro c
  cases c with
  | near => exact capWritten_covers offset n 0 _ _
  | far => exact capWritten_covers offset n 1 _ _

/-! ### LIMITS (R115) and PROTECT (R165) -/

theorem forceLimits_capReachesThePath : CapReachesThePath s offset n (s.forceLimits offset n new) := by
  let t := s.setTables { s.tables with limits := new }
  unfold CapReachesThePath
  by_cases covered : offset ≤ 7 ∧ 7 < offset + n
  · have acts : s.forceLimits offset n new = if s.hinge.settled then t else t.recompute .far :=
      if_pos (covers_iff.2 covered)
    cases settled : s.hinge.settled with
    | true =>
      rw [if_neg fun h => Bool.noConfusion h.2, acts, settled]
      rfl
    | false =>
      rw [if_pos ⟨covered, rfl⟩, acts, settled]
      exact ⟨rfl, PathRecord.take_ordered _ _ _, PathRecord.take_restriction _ _ _,
        take_recomputed t .far s.path.far s.path.far rfl rfl rfl⟩
  · have stays : s.forceLimits offset n new = t := if_neg (mt covers_iff.1 covered)
    rw [if_neg fun h => covered h.1, stays]
    rfl

theorem setProtectWords_classesForced : ClassesForced s new (s.setProtectWords new) :=
  ⟨rfl, fun k _ => PerFault.get_ofKind _ k, (s.setTables { s.tables with protect := new }).setFaults_handed _⟩

/-! ### A table in force (R190) -/

/-- The copies of the tables 1..3 come into force by promotion alone (R47). -/
theorem force_copiesOf (q r : RecordId) : (s.force r offset n new).copiesOf q = s.copiesOf q := by
  cases r with
  | limits =>
    rw [force, forceLimits_frame]
    cases q <;> rfl
  | _ => cases q <;> rfl

theorem force_recordWords_other {q r : RecordId} (other : q ≠ r) :
    (s.force r offset n new).recordWords q = s.recordWords q := by
  cases r with
  | limits =>
    rw [force, forceLimits_frame]
    cases q <;> first | rfl | exact absurd rfl other
  | _ => cases q <;> first | rfl | exact absurd rfl other

theorem force_untouched {q r : RecordId} (other : q ≠ r) : Untouched q s (s.force r offset n new) where
  words := s.force_recordWords_other offset n new other
  copies := s.force_copiesOf offset n new q r
  counter is := by
    subst is
    cases r with
    | gauge => exact absurd rfl other
    | limits => rw [force, forceLimits_frame]
    | _ => rfl
  path is := by
    subst is
    cases r with
    | limits => exact absurd rfl other
    | _ => rfl
  prot is := by
    subst is
    cases r with
    | protect => exact absurd rfl other
    | limits =>
      rw [force, forceLimits_frame]
      exact ⟨rfl, rfl⟩
    | _ => exact ⟨rfl, rfl⟩

section
variable {r : RecordId} (four : 4 ≤ r.num)
include four

theorem force_recordWords (caps : r = .gauge → s.CapsStay offset n new) :
    (s.force r offset n new).recordWords r = new := by
  cases r with
  | profileN | profileF | bands => exact absurd four (by decide)
  | limits =>
    rw [force, forceLimits_frame]
    rfl
  | balance | protect | calibration => rfl
  | gauge => exact s.forceGauge_recordWords (caps rfl)

theorem force_tableForced (caps : r = .gauge → s.CapsStay offset n new) :
    TableForced s r offset n new (s.force r offset n new) := by
  refine ⟨s.force_recordWords offset n new four caps, fun q other => s.force_recordWords_other offset n new other,
    s.force_frame r offset n new, fun other => ?_, fun other => ?_, fun other => ?_, ?_, ?_, ?_⟩
  · exact (s.force_untouched offset n new other.symm).counter rfl
  · exact (s.force_untouched offset n new other.symm).path rfl
  · exact (s.force_untouched offset n new other.symm).prot rfl
  · rintro rfl
    exact s.forceGauge_capsForced offset n new
  · rintro rfl
    exact s.forceLimits_capReachesThePath offset n new
  · rintro rfl
    exact s.setProtectWords_classesForced new

theorem bring_tableForced (words : List Word) :
    TableForced s r offset words.length (s.broughtIn r offset words).1 (s.bring r offset words) := by
  refine s.force_tableForced offset words.length _ four ?_
  rintro rfl
  exact s.broughtIn_capsStay offset words

end

/-! ### A promotion attempt (R47 to R52) -/

theorem promote_passes {r : RecordId} {k : Copies} (passes : checkOf s.factory r k.pending = 0)
    (source : ProfileSource) :
    s.promote r k source = { s.setCopies r ⟨k.pending, k.pending, false⟩ with
      link := s.link.notify s.alloc.frame.number (.profile r.num true 0 source)
      handed := s.handed.promotion r k.pending } := by
  unfold promote
  rw [if_pos passes]
  cases r <;> rfl

theorem promote_fails {r : RecordId} {k : Copies} (fails : checkOf s.factory r k.pending ≠ 0)
    (source : ProfileSource) :
    s.promote r k source = { s.setCopies r ⟨k.active, k.pending, true⟩ with
      link := s.link.notify s.alloc.frame.number
        (.profile r.num false (checkOf s.factory r k.pending) source) } := by
  unfold promote
  rw [if_neg fails]
  cases r <;> rfl

theorem promote_leaves {r : RecordId} {old : Copies} (had : s.copiesOf r = some old) (k : Copies)
    (source : ProfileSource) :
    let check := checkOf s.factory r k.pending
    let after : Copies := if check = 0 then ⟨k.pending, k.pending, false⟩ else ⟨k.active, k.pending, true⟩
    let u := s.promote r k source
    u.copiesOf r = some after
      ∧ u.link = s.link.notify s.alloc.frame.number (.profile r.num (check == 0) check source)
      ∧ u = { s.setCopies r after with link := u.link, handed := u.handed }
      ∧ (check = 0 → PromotionHanded s r k.pending u) ∧ (check ≠ 0 → u.handed = s.handed) := by
  intro check after u
  have took (v : Copies) : (s.setCopies r v).copiesOf r = some v := s.copiesOf_setCopies r v old had
  have handed := s.promote_handed r k source (Option.isSome_of_eq_some had)
  by_cases passes : check = 0
  · have isAfter : after = ⟨k.pending, k.pending, false⟩ := if_pos passes
    have isU : u = _ := s.promote_passes passes source
    refine ⟨?_, ?_, ?_, handed⟩
    · rw [isU, isAfter]
      exact took _
    · rw [isU, passes]
      rfl
    · rw [isU, isAfter]
  · have isAfter : after = ⟨k.active, k.pending, true⟩ := if_neg passes
    have isU : u = _ := s.promote_fails passes source
    refine ⟨?_, ?_, ?_, handed⟩
    · rw [isU, isAfter]
      exact took _
    · rw [isU, beq_eq_false_iff_ne.2 passes]
    · rw [isU, isAfter, s.setCopies_frame]

end State
end Sys2Proof.Machine
end

section
/-! PROOFS. The requests that read and write the tables (R46, R47, R190, R210, R211). -/

namespace Sys2Proof.Machine

/-! ### The ids (R210, R211) -/

theorem tableOf_record (r : RecordId) : tableOf (BitVec.ofNat 8 r.num) = some (.record r) := by
  cases r <;> rfl

/-- The stored records are 1 to 8, so an id of 0, 10 or above 13 names no table. -/
theorem tableOf_none {id : Byte} (h : id = 0 ∨ id = 10 ∨ 13 < id.toNat) : tableOf id = none := by
  have unnamed (r : RecordId) : r.num ≠ id.toNat := by
    have num : 1 ≤ r.num ∧ r.num ≤ 8 := by cases r <;> decide
    rcases h with rfl | rfl | above <;> simp <;> omega
  have others : id ≠ 9 ∧ id ≠ 11 ∧ id ≠ 12 ∧ id ≠ 13 := by
    refine ⟨?_, ?_, ?_, ?_⟩ <;> rintro rfl <;> simp at h
  obtain ⟨ne9, ne11, ne12, ne13⟩ := others
  rw [tableOf, if_neg ne9, if_neg ne11, if_neg ne12, if_neg ne13, Option.map_eq_none_iff,
    List.find?_eq_none]
  exact fun r _ same => unnamed r (beq_iff_eq.1 same)

/-- The tables 4..8 have no pending copy (R39). -/
theorem State.copiesOf_eq_none (s : State) {r : RecordId} (four : 4 ≤ r.num) : s.copiesOf r = none := by
  cases r with
  | profileN | profileF | bands => exact absurd four (by decide)
  | _ => rfl

theorem State.editCode_of_copies {s : State} {r : RecordId} {k : Copies} (h : s.copiesOf r = some k) :
    s.editCode (.record r) = flagCode k.editing := by
  rw [editCode, h]
  rfl

theorem State.editCode_of_none {s : State} {r : RecordId} (h : s.copiesOf r = none) :
    s.editCode (.record r) = 0 := by
  rw [editCode, h]
  rfl

/-! ### TABLE-WRITE (R211) -/

/-- A write puts its adjusted words into the pending copy, and any word makes it EDITING (R44, R46). -/
theorem Copies.write_eq (k : Copies) (fields : List Field) (offset : Nat) (words : List Word) :
    k.write fields offset words =
      if words = [] then k
      else ⟨k.active, k.pending.splice offset (adjustWords fields offset words), true⟩ := by
  cases words <;> rfl

/-- Also where no word is written, as nothing is then spliced in. -/
theorem Copies.pending_write (k : Copies) (fields : List Field) (offset : Nat) (words : List Word) :
    (k.write fields offset words).pending = k.pending.splice offset (adjustWords fields offset words) := by
  cases words with
  | nil => simp [write, Words.splice, adjustWords]
  | cons word rest => rfl

theorem Copies.active_write (k : Copies) (fields : List Field) (offset : Nat) (words : List Word) :
    (k.write fields offset words).active = k.active := by
  cases words <;> rfl

namespace State
variable {s : State} {id offset flags : Byte} {words : List Word} {final : Bool}

theorem tableWrite_stray {table : TableId} (names : tableOf id = some table) (stray : flags &&& 0xFE ≠ 0) :
    s.tableWrite final id offset flags words =
      ⟨s, .badArg, [id, offset, BitVec.ofNat 8 words.length, s.editCode table, 0, 0]⟩ := by
  rw [tableWrite, names]
  exact if_pos (bne_iff_ne.2 stray)

theorem tableWrite_unnamed (unnamed : tableOf id = none) :
    s.tableWrite final id offset flags words = ⟨s, .badArg, [id, offset, 0, 0, 0, 0]⟩ := by
  rw [tableWrite, unnamed]
  rfl

theorem tableWrite_readOnly (names : id = 9 ∨ id = 11 ∨ id = 12 ∨ id = 13) (clean : flags &&& 0xFE = 0) :
    s.tableWrite final id offset flags words = ⟨s, .readOnly, [id, offset, 0, 0, 0, 0]⟩ := by
  have noStray : strayFlags flags = false := bne_eq_false_iff_eq.2 clean
  rcases names with rfl | rfl | rfl | rfl <;> simp only [tableWrite, tableOf, noStray] <;> rfl

theorem tableWrite_record {r : RecordId} (names : id = BitVec.ofNat 8 r.num) (clean : flags &&& 0xFE = 0) :
    s.tableWrite final id offset flags words = s.writeRecord final id offset r words := by
  rw [tableWrite, names, tableOf_record]
  exact if_neg (Bool.eq_false_iff.1 (bne_eq_false_iff_eq.2 clean))

theorem writeRecord_beyond {r : RecordId} (beyond : r.length < offset.toNat + words.length) :
    s.writeRecord final id offset r words =
      ⟨s, .range, [id, offset, BitVec.ofNat 8 words.length, s.editCode (.record r), 0, 0]⟩ := if_pos beyond

theorem writeRecord_copies {r : RecordId} {k : Copies} (within : ¬ r.length < offset.toNat + words.length)
    (copies : s.copiesOf r = some k) :
    s.writeRecord final id offset r words =
      if final then s.writeAndPromote id offset r k words else s.writePending id offset r k words := by
  rw [writeRecord, if_neg within, copies]

theorem writeRecord_inForce {r : RecordId} (within : ¬ r.length < offset.toNat + words.length)
    (four : 4 ≤ r.num) : s.writeRecord final id offset r words = s.writeInForce id offset r words := by
  rw [writeRecord, if_neg within, s.copiesOf_eq_none four]

theorem exec_tableWrite (hrun : s.phase = .running) (tag : Byte) :
    exec (.tableWrite tag id offset flags words) s
      = .next ((s.tableWrite false id offset flags words).reply 0x21 tag) :=
  s.request_running .tableWrite tag (State.tableWrite false id offset flags words) hrun

theorem exec_tableWriteFinal (hrun : s.phase = .running) (tag : Byte) :
    exec (.tableWriteFinal tag id offset flags words) s
      = .next ((s.tableWrite true id offset flags words).reply 0x21 tag) :=
  s.request_running .tableWrite tag (State.tableWrite true id offset flags words) hrun

theorem exec_tableRead (hrun : s.phase = .running) (tag count : Byte) :
    exec (.tableRead tag id offset count) s = .next ((s.tableRead id offset count).reply 0x20 tag) :=
  s.request_running .tableRead tag (State.tableRead id offset count) hrun

end State

/-- Settles O40: an attempt to write beyond the table, a write that is stored, and one that is promoted. -/
theorem tableWriteStoresAndPromotes : Obligations.TableWriteStoresAndPromotes := by
  unfold Obligations.TableWriteStoresAndPromotes
  intro s tag id offset words r k hrun copies names _ n edit adjusted clamped taken pending check stored
  rw [State.exec_tableWrite hrun, State.exec_tableWriteFinal hrun,
    State.tableWrite_record names (by decide), State.tableWrite_record names (by decide)]
  have write : k.write (s.fieldsOf r) offset.toNat words = stored := k.write_eq _ _ _
  have active : stored.active = k.active := write ▸ k.active_write _ _ _
  have storedPending : stored.pending = pending := write ▸ k.pending_write _ _ _
  have sameCheck : checkOf s.factory r stored.pending = check := by rw [storedPending]
  have code {t : State} {v : Copies} (h : t.copiesOf r = some v) : t.editCode (.record r) = edit v.editing :=
    State.editCode_of_copies h
  split
  · rename_i beyond
    rw [State.writeRecord_beyond beyond, State.writeRecord_beyond beyond, code copies]
    exact ⟨rfl, rfl⟩
  · rename_i within
    rw [State.writeRecord_copies within copies, State.writeRecord_copies within copies, if_neg nofun, if_pos rfl]
    constructor
    · have took := code (s.copiesOf_setCopies r stored k copies)
      rw [State.writePending, write]
      dsimp only [State.writeBody]
      rw [took]
      rfl
    · have leaves := s.promote_leaves copies stored .write
      dsimp only at leaves
      rw [active, sameCheck] at leaves
      have took := code leaves.1
      refine ⟨s.promote r stored .write, ?_, leaves⟩
      rw [State.writeAndPromote, write]
      dsimp only [State.writeBody]
      rw [took, sameCheck]
      by_cases passes : check = 0
      · rw [if_pos passes, if_pos passes, if_pos passes, passes]
        rfl
      · rw [if_neg passes, if_neg passes, if_neg passes, bne_iff_ne.2 passes]
        rfl

/-! ### A table in force, and TABLE-READ (R190, R210) -/

namespace State
variable {s : State} {id offset : Byte}

theorem writeInForce_eq {r : RecordId} (four : 4 ≤ r.num) (words : List Word) :
    s.writeInForce id offset r words =
      ⟨s.bring r offset.toNat words, if (s.broughtIn r offset.toNat words).2 then .clamped else .ok,
        [id, offset, BitVec.ofNat 8 words.length, 0, 0,
          if (s.broughtIn r offset.toNat words).2 then 1 else 0]⟩ := by
  have code := editCode_of_none ((s.bring r offset.toNat words).copiesOf_eq_none four)
  rw [writeInForce]
  dsimp only [writeBody]
  rw [code]
  rfl

theorem tableRead_unnamed (unnamed : tableOf id = none) (count : Byte) :
    s.tableRead id offset count = ⟨s, .badArg, [id, offset, 0, 0]⟩ := by
  rw [tableRead, unnamed]
  rfl

theorem tableRead_tooMany {table : TableId} (names : tableOf id = some table) {count : Byte}
    (many : 28 < count.toNat) :
    s.tableRead id offset count
      = ⟨s, .badArg, [id, offset, Config.refusedReadCount s.fresh, s.editCode table]⟩ := by
  rw [tableRead, names]
  exact if_pos many

theorem tableRead_words {table : TableId} (names : tableOf id = some table) {count : Byte}
    (few : count.toNat ≤ 28) :
    s.tableRead id offset count =
      ⟨s, if 0 < count.toNat ∧ table.length < offset.toNat + count.toNat then .part else .ok,
        [id, offset, count, s.editCode table]
          ++ ((List.range count.toNat).map fun i =>
              le16 (BitVec.ofInt 16 ((s.tableWords table).getD (offset.toNat + i) 0))).flatten⟩ := by
  rw [tableRead, names]
  exact if_neg few.not_gt

end State

/-- Settles O41: the requests in the order of R211, by what the id names. -/
theorem tablesAreReadAndWritten : Obligations.TablesAreReadAndWritten := by
  unfold Obligations.TablesAreReadAndWritten
  intro s tag id offset words hrun
  have write (flags : Byte) :=
    s.exec_tableWrite (id := id) (offset := offset) (flags := flags) (words := words) hrun tag
  have final (flags : Byte) :=
    s.exec_tableWriteFinal (id := id) (offset := offset) (flags := flags) (words := words) hrun tag
  have read (count : Byte) := s.exec_tableRead (id := id) (offset := offset) hrun tag count
  simp only [write, final, read]
  refine ⟨fun r four names within _ => ?_, fun r four names beyond => ?_, fun table flags names stray => ?_,
    fun names => ?_, fun names => ⟨fun flags => ?_, fun count => ?_⟩, fun table count names few => ?_,
    fun table count names many => ?_⟩
  · refine ⟨s.bring r offset.toNat words, ?_, ?_, s.bring_tableForced offset.toNat four words⟩
    · rw [State.tableWrite_record names (by decide), State.writeRecord_inForce within.not_gt four,
        State.writeInForce_eq four]
    · rw [State.tableWrite_record names (by decide), State.writeRecord_inForce within.not_gt four,
        State.tableWrite_record names (by decide), State.writeRecord_inForce within.not_gt four]
  · rw [State.tableWrite_record names (by decide), State.writeRecord_beyond beyond,
      State.tableWrite_record names (by decide), State.writeRecord_beyond beyond,
      State.editCode_of_none (s.copiesOf_eq_none four)]
    exact ⟨rfl, rfl⟩
  · rw [State.tableWrite_stray names stray, State.tableWrite_stray names stray]
    exact ⟨rfl, rfl⟩
  · rw [State.tableWrite_readOnly names (by decide), State.tableWrite_readOnly names (by decide)]
    exact ⟨rfl, rfl⟩
  · rw [State.tableWrite_unnamed (tableOf_none names), State.tableWrite_unnamed (tableOf_none names)]
    exact ⟨rfl, rfl⟩
  · rw [State.tableRead_unnamed (tableOf_none names)]
  · rw [State.tableRead_words names few]
  · exact ⟨_, by rw [State.tableRead_tooMany names many]⟩

end Sys2Proof.Machine
end

section
/-! PROOFS. The LOAD request (R54, R195). -/

namespace Sys2Proof.Machine

theorem recordSet_one (r : RecordId) : recordSet [r] = 1#16 <<< r.num := by cases r <;> rfl

/-- A mask of one record lies within the stored records. -/
theorem recordMask_within (r : RecordId) : (1#16 <<< r.num) &&& 0xFE01 = 0 := by cases r <;> rfl

namespace State
variable {s : State} {r : RecordId}

/-! ### One record (R195) -/

theorem loadRecords_one_bad (bad : slotPasses r (s.store.slots.get r) = false) :
    (s.loadRecords [r]).state = s := by
  simp only [loadRecords, List.foldl, LoadOutcome.take, bad, Bool.false_eq_true, if_false]

theorem loadRecords_one_inForce (passes : slotPasses r (s.store.slots.get r) = true) (four : 4 ≤ r.num) :
    (s.loadRecords [r]).state = s.bring r 0 (s.store.slots.get r).words := by
  simp only [loadRecords, List.foldl, LoadOutcome.take, passes, if_true, s.copiesOf_eq_none four]

theorem loadRecords_one_promoted (passes : slotPasses r (s.store.slots.get r) = true) {k : Copies}
    (copies : s.copiesOf r = some k) :
    (s.loadRecords [r]).state
      = s.promote r (k.write (s.fieldsOf r) 0 (s.store.slots.get r).words) .load := by
  simp only [loadRecords, List.foldl, LoadOutcome.take, passes, if_true, copies]

/-! ### The request -/

theorem loadRequest_refused {mask : Word} {why : Status} (h : s.storeRefusal mask = some why) :
    s.loadRequest mask = ⟨s, why, [0, 0, 0, 0, 0, 0, 0]⟩ := by
  rw [loadRequest, h]
  rfl

/-- The named records, one after the other, and what is reported of them. -/
theorem loadRequest_taken {mask : Word} (h : s.storeRefusal mask = none) :
    let named := recordsIn mask
    let passes (q : RecordId) : Bool := slotPasses q (s.store.slots.get q)
    let check (q : RecordId) : Nat := if q ∈ named then s.checkAttempted q else 0
    s.loadRequest mask =
      ⟨named.foldl (fun x q => (x.loadRecords [q]).state) s, if named.all passes then .ok else .part,
        le16 (recordSet (named.filter passes)) ++ le16 (recordSet (named.filter fun q => !passes q))
          ++ [w8 (check .profileN), w8 (check .profileF), w8 (check .bands)]⟩ := by
  intro named passes check
  obtain ⟨state, loaded, bad⟩ := loadRecords_parts s named
  have checks : (s.loadRecords named).checkOf = check :=
    funext (loadRecords_checkOf s named (recordsIn_nodup mask))
  have none_bad : (named.filter fun q => !passes q).isEmpty = named.all passes := by
    rw [Bool.eq_iff_iff, List.isEmpty_iff, List.filter_eq_nil_iff, List.all_eq_true]
    simp only [Bool.not_eq_true, Bool.not_eq_false']
  rw [loadRequest, h]
  dsimp only
  rw [state, loaded, bad, checks, none_bad]
  rfl

/-- The check number that is reported of a table 1..3 (R195). -/
theorem checkAttempted_reported (named : List RecordId) (q : RecordId) :
    w8 (if q ∈ named then s.checkAttempted q else 0) =
      match s.copiesOf q with
      | some k =>
        if q ∈ named ∧ slotPasses q (s.store.slots.get q) = true then
          BitVec.ofNat 8 (checkOf s.factory q
            (k.pending.splice 0 (adjustWords (s.fieldsOf q) 0 (s.store.slots.get q).words)))
        else 0
      | none => 0 := by
  cases copies : s.copiesOf q with
  | none =>
    rw [checkAttempted, copies, ite_self]
    rfl
  | some k =>
    rw [checkAttempted, copies]
    dsimp only
    by_cases names : q ∈ named <;> by_cases passes : slotPasses q (s.store.slots.get q) = true <;>
      simp only [names, passes, if_true, if_false, true_and, false_and] <;> rfl

end State

/-- Settles O39: a mask of several records by the parts of the load, and one of a single record from it. -/
theorem loadBringsASlotIntoForce : Obligations.LoadBringsASlotIntoForce := by
  unfold Obligations.LoadBringsASlotIntoForce
  intro s tag r hrun i sl set passes brought checks refused
  have load (mask : Word) : exec (.load tag mask) s = .next ((s.loadRequest mask).reply 0x23 tag) :=
    s.request_running .load tag (State.loadRequest mask) hrun
  have isRefused {mask : Word} {why : Status} (h : s.storeRefusal mask = some why) : refused mask why := by
    dsimp only [refused]
    rw [load, State.loadRequest_refused h]
  have taken (idle : s.store.state = .idle) {mask : Word} (within : mask &&& 0xFE01 = 0) :
      let named := recordsIn mask
      exec (.load tag mask) s = .next (Answer.reply
        ⟨named.foldl (fun x q => (x.loadRecords [q]).state) s, if named.all passes then .ok else .part,
          le16 (recordSet (named.filter passes)) ++ le16 (recordSet (named.filter fun q => !passes q))
            ++ checks named⟩ 0x23 tag) := by
    intro named
    rw [load, State.loadRequest_taken ((State.storeRefusal_idle idle mask).trans (if_pos within)),
      State.checkAttempted_reported, State.checkAttempted_reported, State.checkAttempted_reported]
    rfl
  have takenOne (idle : s.store.state = .idle) := taken idle (recordMask_within r)
  rw [recordsIn_one] at takenOne
  have no_attempt (four : passes r = true → 4 ≤ r.num) : checks [r] = [0, 0, 0] := by
    have silent (q : RecordId) (low : q.num ≤ 3) : ¬ (q ∈ [r] ∧ passes q = true) := by
      rintro ⟨isR, good⟩
      rw [List.mem_singleton.1 isR] at low good
      exact absurd (four good) (by omega)
    simp only [checks, State.copiesOf, List.map, if_neg (silent .profileN (by decide)),
      if_neg (silent .profileF (by decide)), if_neg (silent .bands (by decide))]
  have good_one (idle : s.store.state = .idle) (good : passes r = true) : exec i s
      = .next (Answer.reply ⟨(s.loadRecords [r]).state, .ok, set ++ [0, 0] ++ checks [r]⟩ 0x23 tag) := by
    have one_loaded : [r].filter passes = [r] := List.filter_cons_of_pos good
    have none_bad : ([r].filter fun q => !passes q) = [] := List.filter_cons_of_neg (by rw [good]; nofun)
    have one := takenOne idle
    dsimp only [List.foldl] at one
    rw [one_loaded, none_bad, recordSet_one, List.all_cons, good] at one
    exact one
  refine ⟨fun w hw => ⟨?_, fun mask => ⟨fun within => ?_, fun outside => ?_⟩⟩, fun idle bad => ?_,
    fun idle good four => ?_, fun idle good k copies => ?_, fun mask idle => ⟨fun outside => ?_, taken idle⟩⟩
  · exact isRefused (State.storeRefusal_writing hw (recordMask_within r))
  · exact isRefused (State.storeRefusal_writing hw within)
  · exact (State.storeRefusal_outside outside).imp isRefused isRefused
  · have bad : passes r = false := bad
    have none_loaded : [r].filter passes = [] := List.filter_cons_of_neg (Bool.eq_false_iff.1 bad)
    have one_bad : ([r].filter fun q => !passes q) = [r] := List.filter_cons_of_pos (congrArg (!·) bad)
    have attempted : checks [r] = [0, 0, 0] := no_attempt fun good => absurd (bad.symm.trans good) nofun
    have one := takenOne idle
    dsimp only [List.foldl] at one
    rw [none_loaded, one_bad, attempted, recordSet_one, State.loadRecords_one_bad bad, List.all_cons,
      bad] at one
    exact one
  · refine ⟨s.bring r 0 sl.words, ?_, (State.loadRecords_one_inForce good four).symm,
      s.bring_tableForced 0 four sl.words⟩
    rw [good_one idle good, no_attempt fun _ => four, State.loadRecords_one_inForce good four]
  · have write := k.write_pending (s.fieldsOf r) sl.words
    have leaves := s.promote_leaves copies (k.write (s.fieldsOf r) 0 sl.words) .load
    rw [write.1, write.2] at leaves
    refine ⟨s.promote r (k.write (s.fieldsOf r) 0 sl.words) .load, ?_,
      (State.loadRecords_one_promoted good copies).symm, leaves⟩
    rw [good_one idle good, State.loadRecords_one_promoted good copies]
  · exact isRefused ((State.storeRefusal_idle idle mask).trans (if_neg outside))

end Sys2Proof.Machine
end

section
/-! PROOFS. The power-on load (R55, R194, R196). A record has one turn in the load, and the turns of the other records
leave what belongs to it. -/

namespace Sys2Proof.Machine

/-! ### The set of records -/

theorem recordSet_mem (rs : List RecordId) (r : RecordId) : (recordSet rs).getLsbD r.num = true ↔ r ∈ rs := by
  have small : r.num < 16 := by cases r <;> decide
  have injective : Function.Injective RecordId.num := by
    intro q r
    cases q <;> cases r <;> simp [RecordId.num]
  rw [recordSet, setOf_mem _ _ small, List.mem_map_of_injective injective]

/-! ### The turn of one record -/

namespace State
variable (s : State)

theorem takeDefaults_untouched {q r : RecordId} (other : q ≠ r) : Untouched q s (s.takeDefaults r) := by
  unfold takeDefaults
  split
  · exact s.setCopies_untouched _ other
  · exact s.force_untouched _ _ _ other

variable {s}

theorem takeDefaults_inForce {r : RecordId} (four : 4 ≤ r.num) :
    s.takeDefaults r = s.force r 0 r.length (defaultWords s.factory r) := by
  rw [takeDefaults, s.copiesOf_eq_none four]

theorem takeDefaults_copies {r : RecordId} {k : Copies} (copies : s.copiesOf r = some k) :
    s.takeDefaults r = s.setCopies r (cleanCopies (defaultWords s.factory r)) := by
  rw [takeDefaults, copies]

/-- The words brought in depend on the table's own words and on the factory block. -/
theorem broughtIn_congr {t : State} {r : RecordId} (words : t.recordWords r = s.recordWords r)
    (factory : t.factory = s.factory) (offset : Nat) (new : List Word) :
    t.broughtIn r offset new = s.broughtIn r offset new := by
  have fields : t.fieldsOf r = s.fieldsOf r := by
    cases r with
    | balance => exact congrArg (fun w => balanceFields (Balance.xferStart w)) words
    | _ => simp only [fieldsOf, factory]
  cases r with
  | balance => exact congrArg (bringBalance · offset new) words
  | _ =>
    simp only [broughtIn]
    rw [words, fields]

end State

namespace LoadProgress
variable (p : LoadProgress) {q r : RecordId}

theorem take_untouched (other : q ≠ r) : Untouched q p.state (p.take r).state := by
  unfold take
  dsimp only
  split
  · split
    · split
      · exact p.state.setCopies_untouched _ other
      · exact p.state.takeDefaults_untouched other
    · exact p.state.force_untouched _ _ _ other
  · exact p.state.takeDefaults_untouched other

theorem take_defaulted_other (other : q ≠ r) : q ∈ (p.take r).defaulted ↔ q ∈ p.defaulted := by
  have added : q ∈ p.defaulted ++ [r] ↔ q ∈ p.defaulted := by
    rw [List.mem_append, List.mem_singleton, or_iff_left other]
  unfold take
  dsimp only
  split
  · split
    · split
      · rfl
      · exact added
    · rfl
  · exact added

variable {p}

theorem take_bad (bad : slotPasses r (p.state.store.slots.get r) = false) :
    p.take r = ⟨p.state.takeDefaults r, p.defaulted ++ [r]⟩ := by
  simp only [take, bad, Bool.false_eq_true, if_false]

theorem take_inForce (passes : slotPasses r (p.state.store.slots.get r) = true) (four : 4 ≤ r.num) :
    p.take r = ⟨p.state.bring r 0 (p.state.store.slots.get r).words, p.defaulted⟩ := by
  simp only [take, passes, if_true, p.state.copiesOf_eq_none four]

theorem take_copies (passes : slotPasses r (p.state.store.slots.get r) = true) {k : Copies}
    (copies : p.state.copiesOf r = some k) :
    let w := adjustWords (p.state.fieldsOf r) 0 (p.state.store.slots.get r).words
    p.take r =
      if checkOf p.state.factory r w = 0 then ⟨p.state.setCopies r (cleanCopies w), p.defaulted⟩
      else ⟨p.state.takeDefaults r, p.defaulted ++ [r]⟩ := by
  simp only [take, passes, if_true, copies]

end LoadProgress

/-! ### The turns of the other records -/

theorem foldl_take_other {r : RecordId} {rs : List RecordId} (others : r ∉ rs) (p : LoadProgress) :
    Untouched r p.state (rs.foldl LoadProgress.take p).state
      ∧ (r ∈ (rs.foldl LoadProgress.take p).defaulted ↔ r ∈ p.defaulted) := by
  induction rs generalizing p with
  | nil => exact ⟨.refl _, Iff.rfl⟩
  | cons q rs ih =>
    obtain ⟨other, rest⟩ := List.ne_and_not_mem_of_not_mem_cons others
    obtain ⟨later, laterSet⟩ := ih rest (p.take q)
    exact ⟨(p.take_untouched other).trans later, laterSet.trans (p.take_defaulted_other other)⟩

/-- The progress of a load of a state as a record's turn comes: what belongs to the record is as it was, and what
follows its turn leaves that up to the end of the load. -/
structure Turn (s : State) (r : RecordId) (p load : LoadProgress) : Prop where
  before : Untouched r s p.state
  notYet : r ∉ p.defaulted
  frame : p.state = { s with
    tables := p.state.tables, counter := p.state.counter, path := p.state.path, prot := p.state.prot
    handed := p.state.handed }
  after : Untouched r (p.take r).state load.state
  kept : r ∈ load.defaulted ↔ r ∈ (p.take r).defaulted

theorem exists_turn (s : State) (r : RecordId) : ∃ p, Turn s r p s.powerOnLoad := by
  obtain ⟨earlier, later, parts⟩ := List.append_of_mem r.mem_all
  have once : (earlier ++ r :: later).Nodup := parts ▸ (by decide : RecordId.all.Nodup)
  obtain ⟨notEarlier, notLater⟩ : r ∉ earlier ∧ r ∉ later := by
    rw [← not_or, ← List.mem_append]
    exact (List.nodup_cons.1 (List.nodup_middle.1 once)).1
  have before := foldl_take_other notEarlier ⟨s, []⟩
  have after := foldl_take_other notLater ((earlier.foldl LoadProgress.take ⟨s, []⟩).take r)
  have load : s.powerOnLoad = later.foldl LoadProgress.take ((earlier.foldl LoadProgress.take ⟨s, []⟩).take r) := by
    rw [State.powerOnLoad, parts, List.foldl_append, List.foldl_cons]
  rw [← load] at after
  exact ⟨earlier.foldl LoadProgress.take ⟨s, []⟩, before.1, fun mem => List.not_mem_nil (before.2.1 mem),
    powerOnLoad_frame earlier ⟨s, []⟩, after.1, after.2⟩

/-! ### What comes into force depends on what belongs to the record -/

section
variable {s t u v : State} {offset n : Nat} {new : Words}

theorem CapsForced.congr (h : CapsForced t offset n new u) (before : t.counter = s.counter)
    (after : v.counter = u.counter) : CapsForced s offset n new v := by
  intro c
  rw [← before, after]
  exact h c

theorem Recomputed.congr {c : Cell} {old new : PathRecord} (h : Recomputed t c old new)
    (input : t.input = s.input) (hinge : t.hinge = s.hinge) (limits : t.tables.limits = s.tables.limits) :
    Recomputed s c old new := by
  simp only [Recomputed, orderConditioned, input, hinge, limits] at h ⊢
  exact h

theorem CapReachesThePath.congr (h : CapReachesThePath t offset n u) (input : t.input = s.input)
    (hinge : t.hinge = s.hinge) (before : t.path = s.path) (after : v.path = u.path)
    (limits : v.tables.limits = u.tables.limits) : CapReachesThePath s offset n v := by
  unfold CapReachesThePath at h ⊢
  rw [← hinge, ← before, after]
  split
  · rename_i acts
    rw [if_pos acts] at h
    obtain ⟨near, ordered, restriction, recomputed⟩ := h
    exact ⟨near, ordered, restriction, Recomputed.congr recomputed input rfl limits.symm⟩
  · rename_i acts
    rwa [if_neg acts] at h

theorem ClassesForced.congr (h : ClassesForced t new u) (before : t.prot = s.prot ∧ t.handed = s.handed)
    (words : t.tables.protect = s.tables.protect) (after : v.prot = u.prot ∧ v.handed = u.handed) :
    ClassesForced s new v := by
  unfold ClassesForced FaultsHanded
  rw [← before.1, ← before.2, ← words, after.1, after.2]
  exact h

end

/-! ### What the turn of a record leaves -/

namespace Turn
variable {s : State} {r : RecordId} {p load : LoadProgress}

theorem factory (turn : Turn s r p load) : p.state.factory = s.factory := by rw [turn.frame]
theorem store (turn : Turn s r p load) : p.state.store = s.store := by rw [turn.frame]
theorem input (turn : Turn s r p load) : p.state.input = s.input := by rw [turn.frame]
theorem hinge (turn : Turn s r p load) : p.state.hinge = s.hinge := by rw [turn.frame]

end Turn

/-- The words that the load brings into force in a table 4..8 (R196). -/
def State.loadedWords (s : State) (r : RecordId) : Words :=
  if slotPasses r (s.store.slots.get r) then (s.broughtIn r 0 (s.store.slots.get r).words).1
  else defaultWords s.factory r

/-- How many words the load brings into force in a table 4..8 (R196). -/
def State.loadedCount (s : State) (r : RecordId) : Nat :=
  if slotPasses r (s.store.slots.get r) then (s.store.slots.get r).words.length else r.length

theorem Turn.take_inForce {s : State} {r : RecordId} {p load : LoadProgress} (turn : Turn s r p load)
    (four : 4 ≤ r.num) :
    (p.take r).state = p.state.force r 0 (s.loadedCount r) (s.loadedWords r)
      ∧ (r ∈ (p.take r).defaulted ↔ slotPasses r (s.store.slots.get r) = false) := by
  cases passes : slotPasses r (s.store.slots.get r) with
  | true =>
    rw [LoadProgress.take_inForce (turn.store ▸ passes) four, State.loadedCount, State.loadedWords, if_pos passes,
      if_pos passes, turn.store, State.bring, State.broughtIn_congr turn.before.words turn.factory]
    exact ⟨rfl, iff_of_false turn.notYet nofun⟩
  | false =>
    have bad := Bool.eq_false_iff.1 passes
    rw [LoadProgress.take_bad (turn.store ▸ passes), State.loadedCount, State.loadedWords, if_neg bad,
      if_neg bad, State.takeDefaults_inForce four, turn.factory]
    exact ⟨rfl, iff_of_true (by simp) rfl⟩

theorem State.loadedWords_capsStay (s : State) :
    s.CapsStay 0 (s.loadedCount .gauge) (s.loadedWords .gauge) := by
  unfold State.loadedCount State.loadedWords
  split
  · exact s.broughtIn_capsStay 0 _
  · exact ⟨nofun, nofun, (by decide : 2 ≤ 13)⟩

/-- A table 4..8 after the load: its words, and what came into force with them. -/
theorem Turn.inForce {s : State} {r : RecordId} {p load : LoadProgress} (turn : Turn s r p load)
    (four : 4 ≤ r.num) :
    load.state.recordWords r = s.loadedWords r
      ∧ (r ∈ load.defaulted ↔ slotPasses r (s.store.slots.get r) = false)
      ∧ (r = .gauge → CapsForced s 0 (s.loadedCount r) (s.loadedWords r) load.state)
      ∧ (r = .limits → CapReachesThePath s 0 (s.loadedCount r) load.state)
      ∧ (r = .protect → ClassesForced s (s.loadedWords r) load.state) := by
  obtain ⟨took, defaulted⟩ := turn.take_inForce four
  have after := turn.after
  rw [took] at after
  have capsStay : r = .gauge → p.state.CapsStay 0 (s.loadedCount r) (s.loadedWords r) := by
    rintro rfl
    obtain ⟨near, far, both⟩ := s.loadedWords_capsStay
    rw [← turn.before.counter rfl] at near far
    exact ⟨near, far, both⟩
  obtain ⟨words, -, -, -, -, -, caps, reaches, classes⟩ :=
    p.state.force_tableForced 0 (s.loadedCount r) (s.loadedWords r) four capsStay
  refine ⟨after.words.trans words, turn.kept.trans defaulted, fun is => ?_, fun is => ?_, fun is => ?_⟩
  · exact CapsForced.congr (caps is) (turn.before.counter is) (after.counter is)
  · refine CapReachesThePath.congr (reaches is) turn.input turn.hinge (turn.before.path is) (after.path is) ?_
    subst is
    exact after.words
  · refine ClassesForced.congr (classes is) (turn.before.prot is) ?_ (after.prot is)
    subst is
    exact turn.before.words

/-- The fields of a table 1..3 are the same in every state. -/
theorem State.fieldsOf_of_copies {s : State} {r : RecordId} {k : Copies} (copies : s.copiesOf r = some k)
    (t : State) : t.fieldsOf r = s.fieldsOf r := by
  cases r with
  | profileN | profileF | bands => rfl
  | _ => exact nomatch copies

/-- A table 1..3 after the load: both copies alike, from the slot or from the defaults. -/
theorem Turn.copies {s : State} {r : RecordId} {p load : LoadProgress} (turn : Turn s r p load) {k : Copies}
    (copies : s.copiesOf r = some k) :
    let w := adjustWords (s.fieldsOf r) 0 (s.store.slots.get r).words
    if slotPasses r (s.store.slots.get r) = true ∧ checkOf s.factory r w = 0 then
      load.state.copiesOf r = some ⟨w, w, false⟩ ∧ r ∉ load.defaulted
    else load.state.copiesOf r = some ⟨defaultWords s.factory r, defaultWords s.factory r, false⟩
      ∧ r ∈ load.defaulted := by
  intro w
  have copiesNow : p.state.copiesOf r = some k := turn.before.copies.trans copies
  have clean {words : Words} {ds : List RecordId}
      (took : p.take r = ⟨p.state.setCopies r (cleanCopies words), ds⟩) :
      load.state.copiesOf r = some ⟨words, words, false⟩ ∧ (r ∈ load.defaulted ↔ r ∈ ds) := by
    have after := turn.after
    have kept := turn.kept
    rw [took] at after kept
    exact ⟨after.copies.trans (p.state.copiesOf_setCopies r _ k copiesNow), kept⟩
  have defaults (took : p.take r = ⟨p.state.takeDefaults r, p.defaulted ++ [r]⟩) :
      load.state.copiesOf r = some ⟨defaultWords s.factory r, defaultWords s.factory r, false⟩
        ∧ r ∈ load.defaulted := by
    rw [State.takeDefaults_copies copiesNow, turn.factory] at took
    exact (clean took).imp_right fun added => added.2 (by simp)
  cases passes : slotPasses r (s.store.slots.get r) with
  | false =>
    rw [if_neg fun both => Bool.noConfusion both.1]
    exact defaults (LoadProgress.take_bad (turn.store ▸ passes))
  | true =>
    have took := LoadProgress.take_copies (turn.store ▸ passes) copiesNow
    dsimp only at took
    rw [turn.store, turn.factory, State.fieldsOf_of_copies copies] at took
    split
    · rename_i both
      rw [if_pos both.2] at took
      exact (clean took).imp_right fun same => mt same.1 turn.notYet
    · rename_i fails
      rw [if_neg fun check => fails ⟨rfl, check⟩] at took
      exact defaults took

/-- The same for copies and a defaulted set that are given by name. -/
theorem Turn.copies_reported {s u : State} {ds : List RecordId} {r : RecordId} {p : LoadProgress}
    (turn : Turn s r p ⟨u, ds⟩) {fields : List Field} {old k : Copies} (had : s.copiesOf r = some old)
    (isFields : s.fieldsOf r = fields) (now : u.copiesOf r = some k) :
    let w := adjustWords fields 0 (s.store.slots.get r).words
    if slotPasses r (s.store.slots.get r) = true ∧ checkOf s.factory r w = 0 then
      k = ⟨w, w, false⟩ ∧ (recordSet ds).getLsbD r.num = false
    else k = ⟨defaultWords s.factory r, defaultWords s.factory r, false⟩
      ∧ (recordSet ds).getLsbD r.num = true := by
  intro w
  have result := turn.copies had
  rw [isFields] at result
  split
  · rename_i good
    rw [if_pos good] at result
    exact ⟨Option.some.inj (now.symm.trans result.1),
      Bool.eq_false_iff.2 (mt (recordSet_mem ds r).1 result.2)⟩
  · rename_i fails
    rw [if_neg fails] at result
    exact ⟨Option.some.inj (now.symm.trans result.1), (recordSet_mem ds r).2 result.2⟩

/-- The load touches the tables and what comes into force with them alone. -/
theorem powerOnLoad_changes (s : State) :
    s.powerOnLoad.state = { s with
      tables := s.powerOnLoad.state.tables
      counter := s.powerOnLoad.state.counter
      path := s.powerOnLoad.state.path
      prot := s.powerOnLoad.state.prot
      handed := s.powerOnLoad.state.handed } := by
  rw [State.powerOnLoad]
  exact powerOnLoad_frame RecordId.all ⟨s, []⟩

theorem exec_powerOnLoad {s : State} (reset : s.phase = .reset) :
    exec .powerOnLoad s = .next { s.powerOnLoad.state with
      phase := .loaded
      store := { s.powerOnLoad.state.store with defaulted := recordSet s.powerOnLoad.defaulted }
      seen := ⟨{ s.powerOnLoad.state.seen.near with
          prof := s.powerOnLoad.state.tables.profile.near.active, bands := s.powerOnLoad.state.tables.bands.active },
        { s.powerOnLoad.state.seen.far with
          prof := s.powerOnLoad.state.tables.profile.far.active
          bands := s.powerOnLoad.state.tables.bands.active }⟩ } := by
  have carriedOut : exec .powerOnLoad s = execPowerOnLoad s := rfl
  rw [carriedOut, execPowerOnLoad, if_pos reset]
  generalize s.powerOnLoad = load
  rfl

/-- Settles O5: each record at its turn, and what the load leaves of the rest of the part. -/
theorem powerOnLoadBringsInOrDefaults : Obligations.PowerOnLoadBringsInOrDefaults := by
  unfold Obligations.PowerOnLoadBringsInOrDefaults
  refine ⟨fun s notReset => if_neg notReset, fun s reset => ?_⟩
  intro passes words count
  rw [exec_powerOnLoad reset]
  choose progress turn using exists_turn s
  have frame := powerOnLoad_changes s
  generalize s.powerOnLoad = load at frame turn ⊢
  obtain ⟨u, ds⟩ := load
  dsimp only at frame
  obtain ⟨gaugeWords, -, caps, -, -⟩ := (turn .gauge).inForce (by decide)
  obtain ⟨-, -, -, reaches, -⟩ := (turn .limits).inForce (by decide)
  obtain ⟨protectWords, -, -, -, classes⟩ := (turn .protect).inForce (by decide)
  have handed : u.handed = { s.handed with pathBlocks := u.handed.pathBlocks, die := u.handed.die } := by
    rw [(classes rfl).2.2]
  have seen : u.seen = s.seen := by rw [frame]
  refine ⟨_, rfl, ?_, ?_, fun r four => ?_, ?_, ?_, ?_, ?_⟩
  · dsimp only
    rw [← handed, frame]
  · intro r fields k isTable
    simp only [List.mem_cons, Prod.mk.injEq, List.not_mem_nil, or_false] at isTable
    rcases isTable with ⟨rfl, rfl, rfl⟩ | ⟨rfl, rfl, rfl⟩ | ⟨rfl, rfl, rfl⟩
    · exact (turn .profileN).copies_reported rfl rfl rfl
    · exact (turn .profileF).copies_reported rfl rfl rfl
    · exact (turn .bands).copies_reported rfl rfl rfl
  · obtain ⟨inForce, defaulted, -, -, -⟩ := (turn r).inForce four
    refine ⟨inForce, ?_⟩
    rw [Bool.eq_iff_iff, recordSet_mem, Bool.not_eq_true']
    exact defaulted
  · exact gaugeWords ▸ caps rfl
  · exact reaches rfl
  · exact protectWords ▸ classes rfl
  · intro c
    dsimp only
    rw [seen]
    cases c <;> rfl

end Sys2Proof.Machine
end

section
/-! PROOFS. What the counters, the tables, the store and the sequencers stand on, and the commands of the other blocks,
which leave all of it alone (R21, R39, R57, R189). -/

namespace Sys2Proof.Machine

/-- The counters, the tables and the store (R21, R39, R189). -/
structure Stock where
  factory : Factory
  counter : PerCell CounterRecord
  tables : Tables
  store : Store

/-- The sequencers, whether the input is ACTIVE, and the input signals that wait for the sequencers (R57, R137). -/
structure Charge where
  seq : PerCell SeqRecord
  active : Bool
  signals : PerCell (List InputSignal)

namespace State
variable (s : State)

def stock : Stock := ⟨s.factory, s.counter, s.tables, s.store⟩
def charge : Charge := ⟨s.seq, s.inputActive, s.handed.seqSignal⟩

/-- Both at once. -/
def standing : Stock × Charge := (s.stock, s.charge)

/-! ### Shared operations that leave both alone -/

theorem recompute_standing (c : Cell) : (s.recompute c).standing = s.standing := rfl

theorem orderPath_standing (c : Cell) (o : Order) : (s.orderPath c o).standing = s.standing := rfl

theorem dropPathSignal_standing (c : Cell) (rest : List InputSignal) :
    (s.dropPathSignal c rest).standing = s.standing := rfl

theorem setFaults_standing (new : PerFault FaultRecord) : (s.setFaults new).standing = s.standing := by
  rw [setFaults_eq]
  rfl

theorem setHanded_standing (h : Handed) (same : h.seqSignal = s.handed.seqSignal) :
    (s.setHanded h).standing = s.standing := by
  show (s.stock, (⟨s.seq, s.inputActive, h.seqSignal⟩ : Charge)) = s.standing
  rw [same]
  rfl

theorem protectOn_standing (m : MeasSet) : (s.protectOn m).standing = s.standing := by
  unfold protectOn
  dsimp only
  rw [notifyFaults_eq]
  split <;> rfl

theorem takeFrame_standing (m : MeasSet) : (s.takeFrame m).standing = s.standing := by
  rw [takeFrame_frame]
  rfl

theorem endTransferOnEvent_standing (cause : EndCause) : (s.endTransferOnEvent cause).standing = s.standing := by
  rw [endTransferOnEvent_frame]
  rfl

theorem takeEvent_standing {e : TransferEvent} {h : Handed} (taken : s.handed.takeEvent e = some h) :
    (s.setHanded h).standing = s.standing := by
  unfold Handed.takeEvent at taken
  split at taken
  · split at taken <;> cases taken
    rfl
  · split at taken <;> cases taken
    rfl

theorem setInhibitSet_standing (c : Cell) (new : Byte) : (s.setInhibitSet c new).standing = s.standing := by
  rw [setInhibitSet_frame]
  rfl

theorem acceptInhibit_standing (cells : List Cell) (f : Byte → Byte) :
    (s.acceptInhibit cells f).state.standing = s.standing := by
  show (s.forEach cells _).standing = s.standing
  unfold forEach
  induction cells generalizing s with
  | nil => rfl
  | cons c cells ih => exact (ih _).trans (s.setInhibitSet_standing c _)

theorem claim_standing (cells : List Cell) (mask blocking : Byte) :
    (s.claim cells mask blocking).state.standing = s.standing := by
  unfold claim
  split
  · exact s.acceptInhibit_standing cells _
  · rfl

theorem placing_standing (target mask : Byte) {act : List Cell → Answer}
    (h : ∀ cells, (act cells).state.standing = s.standing) :
    (s.placing target mask act).state.standing = s.standing := by
  unfold placing
  split
  · split
    · rfl
    · exact h _
  · rfl

theorem inhibitClear_standing (target mask : Byte) :
    (s.inhibitClear target mask).state.standing = s.standing := by
  unfold inhibitClear
  split
  · exact s.acceptInhibit_standing _ _
  · rfl

theorem faultClear_standing (mask : Word) : (s.faultClear mask).state.standing = s.standing := by
  unfold faultClear
  split <;> rfl

theorem inputLimit_standing (ilim vfloor : Word) : (s.inputLimit ilim vfloor).state.standing = s.standing := rfl

theorem enableTransfer_standing : s.enableTransfer.state.standing = s.standing := rfl

theorem disableTransfer_standing : s.disableTransfer.state.standing = s.standing :=
  endTransferOnEvent_standing (s.setEnable false) .host

theorem cancelTransfer_standing : s.cancelTransfer.state.standing = s.standing :=
  s.endTransferOnEvent_standing .host

theorem fetchNotice_standing : s.fetchNotice.state.standing = s.standing := rfl

theorem writeMask_standing (enabled : Word) : (s.writeMask enabled).state.standing = s.standing := by
  unfold writeMask
  split <;> rfl

end State

/-! ### Predicates kept by a command -/

/-- Whatever state a command gives has the property where the state before had it. -/
def Keeping (P : State → Prop) (s : State) (o : Result) : Prop := P s → ∀ t, o = .next t → P t

namespace Keeping
variable {P : State → Prop} {s t : State}

theorem next (h : P s → P t) : Keeping P s (.next t) := by
  intro hs u hu
  injection hu with hu
  exact hu ▸ h hs

theorem stay : Keeping P s (.next s) := next id

/-- A request keeps what carrying it out keeps, where the reply and the supervisor do not matter (R199). -/
theorem request (replied : ∀ (a : Answer) (kind tag : Byte), P a.state → P (a.reply kind tag)) {k : RequestKind}
    {tag : Byte} {act : State → Answer} (h : P s → P (act s).state) : Keeping P s (s.request k tag act) := by
  by_cases hrun : s.phase = .running
  · rw [s.request_running k tag act hrun]
    exact next fun hs => replied _ _ _ (h hs)
  · rw [s.request_closed k tag act hrun]
    exact stay

end Keeping

/-- What every command and passing time keep, every step keeps. -/
theorem step_keeps {P : State → Prop} (dequeued : ∀ (s : State) (rest : List Instr), P s → P { s with pending := rest })
    (command : ∀ (s : State) (i : Instr), Keeping P s (exec i s)) (time : ∀ s : State, P s → P s.tick) {s t : State}
    (hs : P s) (h : step s = .next t) : P t := by
  cases hq : s.pending with
  | nil =>
    rw [step_empty s hq] at h
    injection h with h
    exact h ▸ time s hs
  | cons i rest =>
    rw [step_cons s i rest hq] at h
    exact command _ i (dequeued s rest hs) t h

/-! ### What a command leaves alone -/

/-- The state that a command gives looks the same as the state before. -/
def Leaves {α : Type} (view : State → α) (s : State) (o : Result) : Prop := ∀ t, o = .next t → view t = view s

namespace Leaves
variable {α : Type} {view : State → α} {s t : State}

theorem next (h : view t = view s) : Leaves view s (.next t) := by
  intro u hu
  injection hu with hu
  exact hu ▸ h

theorem stay : Leaves view s (.next s) := next rfl

/-- A request leaves what carrying it out leaves, where the reply and the supervisor do not show (R199). -/
theorem request (replied : ∀ (a : Answer) (kind tag : Byte), view (a.reply kind tag) = view a.state)
    {k : RequestKind} {tag : Byte} {act : State → Answer} (h : view (act s).state = view s) :
    Leaves view s (s.request k tag act) := by
  by_cases hrun : s.phase = .running
  · rw [s.request_running k tag act hrun]
    exact next ((replied _ _ _).trans h)
  · rw [s.request_closed k tag act hrun]
    exact stay

/-- What hangs on the view alone is kept. -/
theorem keeping {P : State → Prop} (same : ∀ {s t : State}, view t = view s → P s → P t) {o : Result}
    (h : Leaves view s o) : Keeping P s o := fun hs t ht => same (h t ht) hs

/-- What shows in a coarser view is left alone with the finer one. -/
theorem coarser {β : Type} {o : Result} (h : Leaves view s o) (f : α → β) : Leaves (fun s => f (view s)) s o :=
  fun t ht => congrArg f (h t ht)

end Leaves

/-! ### The commands of the other blocks -/

/-- The commands that may change a counter, a table or the store. -/
def stirsStock : Instr → Bool
  | .powerOnReset | .powerOnLoad | .counterSetSteps _ | .fullMark _ | .recordCompletion | .gaugeSeed ..
  | .tableWrite .. | .tableWriteFinal .. | .store .. | .load .. | .storeCancel _ | .softReset _ => true
  | _ => false

/-- The commands that may change a sequencer's record, the state of the input or a signal of it to a sequencer. -/
def stirsCharge : Instr → Bool
  | .powerOnReset | .sequencerSetHandling _ | .safetyTimerExpiry _ | .seqInputGranted _ | .seqInputWithdrawn _
  | .seqInhibitEvent _ | .seqFaultReasonUpdate _ | .seqPromotion _ | .dieSuspendReasonChange
  | .attachFilterExpiry _ | .qualificationExpiry | .supervisorExpiry | .inputSuspendSuspend _
  | .inputSuspendResume _ | .ceiling .. | .chargeRestart .. | .softReset _ => true
  | _ => false

namespace State
variable (s : State) (c : Cell)

theorem execRetryTimerExpiry_standing : Leaves standing s (execRetryTimerExpiry c s) := by
  have cleared (new : PerFault FaultRecord) (p : Protection) : ((s.setFaults new).setProt p).standing = s.standing :=
    s.setFaults_standing new
  unfold execRetryTimerExpiry
  split
  · exact .next (cleared _ _)
  · exact .stay

theorem execOvercurrentTrip_standing (current : Int) : Leaves standing s (execOvercurrentTrip c current s) := by
  have taken (u : State) : (u.takeTrip c).standing = u.standing := by
    unfold takeTrip
    exact u.setFaults_standing _
  unfold execOvercurrentTrip
  dsimp only
  split
  · exact .next (taken (s.setPath c { s.path.get c with armed := false }))
  · exact .stay

theorem execPathInputGranted_standing : Leaves standing s (execPathInputGranted c s) := by
  unfold execPathInputGranted
  split
  · exact .next ((orderPath_standing _ c _).trans (s.dropPathSignal_standing c _))
  · exact .stay
  · exact .stay

theorem execPathInputWithdrawn_standing : Leaves standing s (execPathInputWithdrawn c s) := by
  unfold execPathInputWithdrawn
  split
  · exact .next ((orderPath_standing _ c _).trans (s.dropPathSignal_standing c _))
  · exact .stay
  · exact .stay

theorem execPathHingeUnsettled_standing : Leaves standing s (execPathHingeUnsettled s) := by
  unfold execPathHingeUnsettled
  split
  · exact .next ((orderPath_standing _ .far _).trans (s.setHanded_standing _ rfl))
  · exact .stay

theorem execPathOrderDelivery_standing : Leaves standing s (execPathOrderDelivery c s) := by
  unfold execPathOrderDelivery
  dsimp only
  split
  · split
    · exact .next (s.setHanded_standing _ rfl)
    · exact .next ((orderPath_standing _ c _).trans (s.setHanded_standing _ rfl))
  · exact .stay

theorem execPathRestrictionChange_standing : Leaves standing s (execPathRestrictionChange c s) := by
  unfold execPathRestrictionChange
  dsimp only
  split
  · split
    · exact .next (s.setHanded_standing _ rfl)
    · exact .next ((setHanded_standing _ _ rfl).trans (s.setHanded_standing _ rfl))
  · exact .stay

theorem execHingeFilterExpiry_standing (f : FoldSense) : Leaves standing s (execHingeFilterExpiry f s) := by
  unfold execHingeFilterExpiry
  dsimp only
  split
  · split <;> exact .next rfl
  · exact .stay

end State

/-- Every command of another block leaves the counters, the tables, the store, the sequencers and the state of the
input alone. -/
theorem exec_quiet (s : State) (i : Instr) (hs : stirsStock i = false) (hc : stirsCharge i = false) :
    Leaves State.standing s (exec i s) := by
  have replied (a : Answer) (kind tag : Byte) : (a.reply kind tag).standing = a.state.standing := rfl
  cases i with
  | powerOnReset | powerOnLoad | counterSetSteps | fullMark | recordCompletion | gaugeSeed | tableWrite
  | tableWriteFinal | store | load | storeCancel | softReset => exact nomatch hs
  | sequencerSetHandling | safetyTimerExpiry | seqInputGranted | seqInputWithdrawn | seqInhibitEvent
  | seqFaultReasonUpdate | seqPromotion | dieSuspendReasonChange | attachFilterExpiry | qualificationExpiry
  | supervisorExpiry | inputSuspendSuspend | inputSuspendResume | ceiling | chargeRestart => exact nomatch hc
  -- Whether the command takes place or not, other records alone have changed.
  | powerOnLoadCompletion | roundTimerExpiry | roundCompletion | grantsClearedOnWithdrawal | farGrantHingeCap
  | tripRearm | rampTimerExpiry | settleTimerExpiry | startupSampleExpiry | badRequestFrame
  | readReply =>
    dsimp only [exec, execPowerOnLoadCompletion, execRoundTimerExpiry, execRoundCompletion,
      execGrantsClearedOnWithdrawal, execFarGrantHingeCap, execTripRearm,
      execRampTimerExpiry, execSettleTimerExpiry, execStartupSampleExpiry, execBadRequestFrame, execReadReply]
    split <;> exact .next rfl
  | foldRawChange | inputSagDerateStep =>
    dsimp only [exec, execFoldRawChange, execInputSagDerateStep]
    repeat' split
    all_goals exact .next rfl
  | unknownRequest | lengthError =>
    dsimp only [exec, execUnknownRequest, execLengthError]
    split
    · exact .next (replied _ _ _)
    · exact .stay
  | retryTimerExpiry c => exact s.execRetryTimerExpiry_standing c
  | overcurrentTrip c current => exact s.execOvercurrentTrip_standing c current
  | pathInputGranted c => exact s.execPathInputGranted_standing c
  | pathInputWithdrawn c => exact s.execPathInputWithdrawn_standing c
  | pathHingeUnsettled => exact s.execPathHingeUnsettled_standing
  | pathOrderDelivery c => exact s.execPathOrderDelivery_standing c
  | pathRestrictionChange c => exact s.execPathRestrictionChange_standing c
  | hingeFilterExpiry f => exact s.execHingeFilterExpiry_standing f
  | comparatorRawChange | emptyWrite => exact .next rfl
  | protectionSetReaction =>
    dsimp only [exec, execProtectionSetReaction]
    split
    · exact .next (State.protectOn_standing _ _)
    · exact .stay
  | allocationFrame =>
    dsimp only [exec, execAllocationFrame]
    split
    · exact .next (State.takeFrame_standing _ _)
    · exact .stay
  | transferEventEnd e =>
    dsimp only [exec, execTransferEventEnd]
    split
    · rename_i taken
      have dropped := s.takeEvent_standing taken
      split
      · exact .next ((State.endTransferOnEvent_standing _ _).trans dropped)
      · exact .next dropped
    · exact .stay
  | identify | status | allocation => exact Leaves.request (act := fun t => t.shows _) replied rfl
  | measure tag sect => exact .request replied (congrArg State.standing (s.measure_state sect))
  | cell tag cell sect => exact .request replied (congrArg State.standing (s.cellRecord_state cell sect))
  | faults tag sect => exact .request replied (congrArg State.standing (s.faults_state sect))
  | inputSuspendRead tag func => exact .request replied (congrArg State.standing (s.readSuspend_state func))
  | inhibitSelect tag target mask | inhibitEmptySelect tag target mask =>
    exact .request replied (s.placing_standing target mask fun cells => s.claim_standing cells mask _)
  | inhibitSet tag target mask =>
    exact .request replied (s.placing_standing target mask fun cells => s.acceptInhibit_standing cells _)
  | inhibitClear tag target mask => exact .request replied (s.inhibitClear_standing target mask)
  | inhibitTest tag func target mask =>
    exact .request replied (congrArg State.standing (s.inhibitTest_state func target mask))
  | faultClear tag mask => exact .request replied (s.faultClear_standing mask)
  | balanceRead tag func => exact .request replied (congrArg State.standing (s.readBalance_state func))
  | inputLimit tag ilim vfloor => exact .request replied (s.inputLimit_standing ilim vfloor)
  | balanceEnable tag => exact .request replied s.enableTransfer_standing
  | noticeFetch tag => exact .request replied s.fetchNotice_standing
  | balanceDisable tag => exact .request replied s.disableTransfer_standing
  | balanceCancel tag => exact .request replied s.cancelTransfer_standing
  | tableRead tag id offset count =>
    exact .request replied (congrArg State.standing (s.tableRead_state id offset count))
  | noticeMaskRead tag func enabled => exact .request replied (congrArg State.standing (s.readMask_state func))
  | noticeMaskWrite tag enabled => exact .request replied (s.writeMask_standing enabled)

/-! ### Operations on the sequencers and the input leave the counters, the tables and the store -/

namespace State
variable (s : State)

theorem updateSeq_stock (c : Cell) (new : SeqRecord) : (s.updateSeq c new).stock = s.stock := by
  rw [updateSeq_eq]
  rfl

theorem handleSet_stock (c : Cell) (m : MeasSet) : (s.handleSet c m).stock = s.stock := by
  rw [handleSet_frame]
  rfl

theorem moveInput_stock (new : InputState) : (s.moveInput new).stock = s.stock := by
  rw [moveInput_frame]
  rfl

theorem setReasons_stock (new : SuspendReasons) : (s.setReasons new).stock = s.stock := by
  rw [setReasons_frame]
  rfl

theorem revert_stock : s.revert.stock = s.stock := by
  unfold stock
  rw [revert_frame]

/-- What leaves a view as it is done to a cell leaves it as it is done to each cell of a target. -/
theorem forEach_view {α : Type} (view : State → α) (cells : List Cell) {f : Cell → State → State}
    (h : ∀ c u, view (f c u) = view u) : view (s.forEach cells f) = view s := by
  unfold forEach
  induction cells generalizing s with
  | nil => rfl
  | cons c cells ih => exact (ih (f c s)).trans (h c s)

theorem ceiling_stock (target : Byte) (value : Word) : (s.ceiling target value).state.stock = s.stock := by
  unfold ceiling
  split
  · exact s.forEach_view stock _ fun c u => u.updateSeq_stock c _
  · rfl

theorem chargeRestart_stock (target : Byte) : (s.chargeRestart target).state.stock = s.stock := by
  unfold chargeRestart
  split
  · split
    · rfl
    · exact s.forEach_view stock _ fun c u => updateSeq_stock _ c _
  · rfl

end State

/-- Only the commands named above change a counter, a table or the store. -/
theorem exec_leaves_stock (s : State) (i : Instr) (h : stirsStock i = false) :
    Leaves State.stock s (exec i s) := by
  have replied (a : Answer) (kind tag : Byte) : (a.reply kind tag).stock = a.state.stock := rfl
  by_cases hc : stirsCharge i = false
  · exact (exec_quiet s i h hc).coarser Prod.fst
  · cases i with
    | powerOnReset | softReset => exact nomatch h
    | sequencerSetHandling =>
      dsimp only [exec, execSequencerSetHandling]
      split
      · exact .next (State.handleSet_stock _ _ _)
      · exact .stay
    | safetyTimerExpiry =>
      dsimp only [exec, execSafetyTimerExpiry]
      split
      · split
        · exact .next (State.handleSet_stock _ _ _)
        · exact .next (s.updateSeq_stock _ _)
      · exact .next (s.updateSeq_stock _ _)
    | seqInputGranted =>
      dsimp only [exec, execSeqInputGranted]
      split
      · exact .next (State.updateSeq_stock _ _ _)
      · exact .stay
      · exact .stay
    | seqInhibitEvent | seqFaultReasonUpdate | seqPromotion =>
      dsimp only [exec, execSeqInhibitEvent, execSeqFaultReasonUpdate, execSeqPromotion]
      split
      · exact .next (State.updateSeq_stock _ _ _)
      · exact .stay
    | seqInputWithdrawn =>
      dsimp only [exec, execSeqInputWithdrawn]
      split
      · split
        · exact .next rfl
        · exact .next (State.updateSeq_stock _ _ _)
      · exact .stay
      · exact .stay
    | dieSuspendReasonChange =>
      dsimp only [exec, execDieSuspendReasonChange]
      split
      · exact .next (State.setReasons_stock _ _)
      · exact .stay
    | attachFilterExpiry =>
      dsimp only [exec, execAttachFilterExpiry]
      split
      · exact .next (State.moveInput_stock _ _)
      · exact .stay
    | qualificationExpiry =>
      dsimp only [exec, execQualificationExpiry]
      split
      · exact .next (State.moveInput_stock _ _)
      · exact .stay
    | supervisorExpiry =>
      dsimp only [exec, execSupervisorExpiry]
      split
      · exact .next (State.revert_stock _)
      · exact .stay
    | inputSuspendSuspend | inputSuspendResume => exact .request replied (s.setReasons_stock _)
    | ceiling tag target value => exact .request replied (s.ceiling_stock target value)
    | chargeRestart tag target => exact .request replied (s.chargeRestart_stock target)
    | _ => exact absurd rfl hc

/-! ### Operations on the counters, the tables and the store leave the sequencers and the input -/

namespace State
variable (s : State)

theorem force_charge (r : RecordId) (offset n : Nat) (new : Words) :
    (s.force r offset n new).charge = s.charge := by
  cases r with
  | limits =>
    rw [force, forceLimits_frame]
    rfl
  | _ => rfl

theorem setCopies_charge (r : RecordId) (v : Copies) : (s.setCopies r v).charge = s.charge := by
  rw [setCopies_frame]
  rfl

theorem promote_charge (r : RecordId) (k : Copies) (source : ProfileSource) :
    (s.promote r k source).charge = s.charge := by
  rw [promote_frame]
  rfl

theorem takeDefaults_charge (r : RecordId) : (s.takeDefaults r).charge = s.charge := by
  unfold takeDefaults
  split
  · exact s.setCopies_charge r _
  · exact s.force_charge r _ _ _

theorem powerOnLoad_charge : s.powerOnLoad.state.charge = s.charge := by
  have one (p : LoadProgress) (r : RecordId) : (p.take r).state.charge = p.state.charge := by
    unfold LoadProgress.take
    dsimp only
    split
    · split
      · split
        · exact p.state.setCopies_charge r _
        · exact p.state.takeDefaults_charge r
      · exact p.state.force_charge r _ _ _
    · exact p.state.takeDefaults_charge r
  have all (rs : List RecordId) (p : LoadProgress) :
      (rs.foldl LoadProgress.take p).state.charge = p.state.charge := by
    induction rs generalizing p with
    | nil => rfl
    | cons r rs ih => exact (ih (p.take r)).trans (one p r)
  exact all RecordId.all ⟨s, []⟩

theorem loadRequest_charge (mask : Word) : (s.loadRequest mask).state.charge = s.charge := by
  have one (o : LoadOutcome) (r : RecordId) : (o.take r).state.charge = o.state.charge := by
    unfold LoadOutcome.take
    dsimp only
    split
    · split
      · exact o.state.promote_charge r _ .load
      · exact o.state.force_charge r _ _ _
    · rfl
  have all (rs : List RecordId) (o : LoadOutcome) :
      (rs.foldl LoadOutcome.take o).state.charge = o.state.charge := by
    induction rs generalizing o with
    | nil => rfl
    | cons r rs ih => exact (ih (o.take r)).trans (one o r)
  unfold loadRequest
  split
  · rfl
  · exact all (recordsIn mask) ⟨s, [], [], []⟩

theorem tableWrite_charge (final : Bool) (id offset flags : Byte) (words : List Word) :
    (s.tableWrite final id offset flags words).state.charge = s.charge := by
  have record (r : RecordId) : (s.writeRecord final id offset r words).state.charge = s.charge := by
    unfold writeRecord
    split
    · rfl
    · split
      · split
        · exact s.promote_charge r _ .write
        · exact s.setCopies_charge r _
      · exact s.force_charge r _ _ _
  unfold tableWrite
  split
  · rfl
  · split
    · rfl
    · split
      · exact record _
      all_goals rfl

theorem storeRequest_charge (mask : Word) : (s.storeRequest mask).state.charge = s.charge := by
  unfold storeRequest
  split
  · rfl
  · show (s.startStore (recordsIn mask)).charge = s.charge
    unfold startStore
    split <;> rfl

theorem cancelStore_charge : s.cancelStore.state.charge = s.charge := by
  unfold cancelStore
  split <;> rfl

theorem gaugeSeed_charge (target : Byte) : (s.gaugeSeed target).state.charge = s.charge := by
  unfold gaugeSeed
  split
  · exact s.forEach_view charge _ fun c u => rfl
  · rfl

end State

/-- Only the commands named above change a sequencer, the state of the input or a signal of it to a sequencer. -/
theorem exec_leaves_charge (s : State) (i : Instr) (h : stirsCharge i = false) :
    Leaves State.charge s (exec i s) := by
  have replied (a : Answer) (kind tag : Byte) : (a.reply kind tag).charge = a.state.charge := rfl
  by_cases hs : stirsStock i = false
  · exact (exec_quiet s i hs h).coarser Prod.snd
  · cases i with
    | powerOnReset | softReset => exact nomatch h
    | powerOnLoad =>
      have brought := s.powerOnLoad_charge
      dsimp only [exec, execPowerOnLoad]
      generalize s.powerOnLoad = p at brought ⊢
      split
      · exact .next brought
      · exact .stay
    | counterSetSteps =>
      dsimp only [exec, execCounterSetSteps]
      split <;> exact .next rfl
    | fullMark | recordCompletion =>
      dsimp only [exec, execFullMark, execRecordCompletion]
      repeat' split
      all_goals exact .next rfl
    | gaugeSeed tag target => exact .request replied (s.gaugeSeed_charge target)
    | tableWrite tag id offset flags words | tableWriteFinal tag id offset flags words =>
      exact .request replied (s.tableWrite_charge _ id offset flags words)
    | store tag mask => exact .request replied (s.storeRequest_charge mask)
    | load tag mask => exact .request replied (s.loadRequest_charge mask)
    | storeCancel tag => exact .request replied s.cancelStore_charge
    | _ => exact absurd rfl hs

end Sys2Proof.Machine
end

section
/-! PROOFS. The charge counters: the seed that a voltage gives, what each operation on a record keeps of its bounds,
and that every step keeps both records within them (R21 to R36). -/

namespace Sys2Proof.Machine

/-! ### Arithmetic (R1) -/

/-- A clamped value lies within its bounds. -/
theorem clamp_mem {lo hi : Int} (h : lo ≤ hi) (x : Int) : lo ≤ clamp lo hi x ∧ clamp lo hi x ≤ hi := by
  unfold clamp
  split
  · omega
  · split <;> omega

/-- What a truncated division leaves over is smaller than the divisor. -/
theorem tdiv_rest_lt (a b : Int) (hb : 0 < b) : -b < a - a.tdiv b * b ∧ a - a.tdiv b * b < b := by
  have rest : a - a.tdiv b * b = a.tmod b := by rw [Int.tmod_def, Int.mul_comm]
  have below := Int.tmod_lt_of_pos a hb
  have above := Int.lt_tmod_of_pos a hb
  omega

/-- A rounded-down quotient of at least 0 and below 100 where the dividend lies below 100 times the divisor. -/
theorem divFloor_percent {x d : Int} (hx : 0 ≤ x) (hd : x < d) :
    0 ≤ divFloor (100 * x) d ∧ divFloor (100 * x) d ≤ 100 := by
  unfold divFloor
  rw [Int.fdiv_eq_ediv_of_nonneg _ (by omega)]
  refine ⟨Int.ediv_nonneg (by omega) (by omega), ?_⟩
  exact Int.le_of_lt (Int.ediv_lt_of_lt_mul (by omega) (by omega))

/-! ### The range of CAP (R22) -/

/-- The design capacities of a build (R188). -/
theorem dcap_range {f : Factory} (ok : FactoryOk f) (c : Cell) : 1000 ≤ f.dcap c ∧ f.dcap c ≤ 6000 := by
  obtain ⟨near, far, -⟩ := ok
  cases c
  · exact near
  · exact far

/-- The range of CAP holds the design capacity and no negative one. -/
theorem capRange {design : Int} (h : 1000 ≤ design) :
    0 ≤ capLo design ∧ capLo design ≤ design ∧ design ≤ capHi design := by
  unfold capLo capHi divTrunc
  rw [Int.tdiv_eq_ediv_of_nonneg (by omega), Int.tdiv_eq_ediv_of_nonneg (by omega)]
  omega

/-! ### The seed of a voltage (R29) -/

/-- From a first entry that the voltage is not below, the s of a later entry that it is below is not exceeded. -/
theorem ocvBetween_mem (v : Int) (l : List Int) (base : Int) (k : Nat) (first : ∀ a ∈ l.head?, a ≤ v)
    (below : ∀ b, l[k]? = some b → v < b) (short : l.length ≤ k + 1 ∨ k < l.length) :
    base ≤ ocvBetween v base l ∧ ocvBetween v base l ≤ base + 100 * k := by
  induction l generalizing base k with
  | nil => exact ⟨le_rfl, by simp only [ocvBetween]; omega⟩
  | cons a l ih =>
    cases l with
    | nil => exact ⟨le_rfl, by simp only [ocvBetween]; omega⟩
    | cons b rest =>
      have ha : a ≤ v := first a rfl
      cases k with
      | zero => exact absurd (below a rfl) (by omega)
      | succ k =>
        unfold ocvBetween
        split
        · rename_i hb
          have step := divFloor_percent (x := v - a) (d := b - a) (by omega) (by omega)
          omega
        · rename_i hb
          have later := ih (base + 100) k (by simpa using hb) (fun x hx => below x (by simpa using hx))
            (by simpa using short)
          push_cast
          omega

/-- A seed lies between empty and full. -/
theorem ocvState_mem (ocv : Words) (v : Int) : 0 ≤ ocvState ocv v ∧ ocvState ocv v ≤ 1000 := by
  unfold ocvState
  split
  · omega
  · rename_i above
    split
    · omega
    · rename_i under
      have first : ∀ a ∈ ocv.head?, a ≤ v := by
        intro a ha
        cases ocv with
        | nil => cases ha
        | cons b rest =>
          obtain rfl := Option.some.inj ha
          have : ¬ v ≤ b := above
          omega
      have below : ∀ b, ocv[10]? = some b → v < b := by
        intro b hb
        have : ocv.at 10 = b := by simp [Words.at, List.getD_eq_getElem?_getD, hb]
        omega
      have between := ocvBetween_mem v ocv 0 10 first below (by omega)
      omega

/-! ### What each operation keeps (R21, R24, R29, R32, R34, R36) -/

namespace CounterRecord
variable {design : Int} {r : CounterRecord} {e : CounterEnv}

theorem takeSeed_ok (hd : 1000 ≤ design) (ok : CounterOk design r) : CounterOk design (r.takeSeed e) := by
  obtain ⟨cap, -, -, a⟩ := ok
  obtain ⟨low, -, -⟩ := capRange hd
  have seed := ocvState_mem (if rising e.ocv then e.ocv else defaultOcv) e.vc
  refine ⟨cap, ⟨?_, ?_⟩, by simp [takeSeed], a⟩
  · exact Int.mul_nonneg seed.1 (by omega)
  · show _ * r.cap ≤ r.cap * 1000
    rw [Int.mul_comm r.cap]
    exact Int.mul_le_mul_of_nonneg_right seed.2 (by omega)

theorem integrate_ok (hd : 1000 ≤ design) (he : e.design = design) (ok : CounterOk design r) :
    CounterOk design (r.integrate e) := by
  obtain ⟨cap, -, -, a⟩ := ok
  obtain ⟨low, -, -⟩ := capRange hd
  refine ⟨cap, clamp_mem (by omega) _, ?_, ?_⟩
  · have rest := tdiv_rest_lt (r.total e) 3600 (by decide)
    simp only [integrate, whole, divTrunc]
    split_ifs <;> omega
  · simp only [integrate]
    split
    · unfold aBound
      rw [he]
      exact clamp_mem (by omega) _
    · exact a

theorem mark_ok (hd : 1000 ≤ design) (ok : CounterOk design r) : CounterOk design (r.mark e) := by
  unfold mark
  split
  · obtain ⟨cap, -, -, -⟩ := ok
    obtain ⟨low, -, -⟩ := capRange hd
    exact ⟨cap, ⟨le_rfl, by show 0 ≤ r.cap * 1000; omega⟩, by simp, ⟨le_rfl, by show 0 ≤ _; omega⟩⟩
  · exact ok

theorem takeSet_ok (hd : 1000 ≤ design) (he : e.design = design) (ok : CounterOk design r) :
    CounterOk design (r.takeSet e) := by
  refine mark_ok hd ?_
  unfold seedOrCount
  split
  · exact takeSeed_ok hd ok
  · split
    · exact integrate_ok hd he ok
    · exact ok

/-- A full mark fills the cell, with the capacity it has learned where that lies in the range of CAP (R34). -/
theorem fullMark_ok (hd : 1000 ≤ design) (ok : CounterOk design r) : CounterOk design (r.fullMark design) := by
  obtain ⟨cap, -, -, a⟩ := ok
  obtain ⟨low, -, -⟩ := capRange hd
  have marked : capLo design ≤ capAfterMark design r ∧ capAfterMark design r ≤ capHi design := by
    unfold capAfterMark
    split
    · rename_i learned
      simpa [learnedFits] using learned.2
    · exact cap
  exact ⟨marked, ⟨by show 0 ≤ capAfterMark design r * 1000; omega, le_rfl⟩, by simp [fullMark], a⟩

/-- A CAP in range that comes into force trims Q (R36). -/
theorem setCap_ok (hd : 1000 ≤ design) {cap : Int} (hc : capLo design ≤ cap ∧ cap ≤ capHi design)
    (ok : CounterOk design r) : CounterOk design (r.setCap cap) := by
  obtain ⟨-, q, residue, a⟩ := ok
  obtain ⟨low, -, -⟩ := capRange hd
  refine ⟨hc, ?_, ?_, a⟩
  · show 0 ≤ min r.q (cap * 1000) ∧ min r.q (cap * 1000) ≤ cap * 1000
    omega
  · show _ ≤ (if _ then 0 else r.residue) ∧ (if _ then 0 else r.residue) ≤ _
    split
    · omega
    · exact residue

end CounterRecord

/-! ### The counters of the part -/

/-- A build in its ranges with both counters within their bounds. -/
structure Counted (s : State) : Prop where
  factory : FactoryOk s.factory
  counter : ∀ c, CounterOk (s.factory.dcap c) (s.counter.get c)

theorem counted_iff (s : State) : Counted s ↔ FactoryOk s.factory ∧ CountersOk s := by
  refine ⟨fun h => ⟨h.factory, h.counter .near, h.counter .far⟩, fun h => ⟨h.1, fun c => ?_⟩⟩
  obtain ⟨-, near, far⟩ := h
  cases c
  · exact near
  · exact far

namespace Counted
variable {s t : State}

/-- The predicate hangs on the build and the counters alone. -/
theorem congr (ok : Counted s) (hf : t.factory = s.factory) (hc : t.counter = s.counter) : Counted t where
  factory := hf ▸ ok.factory
  counter c := by rw [hf, hc]; exact ok.counter c

theorem of_stock (same : t.stock = s.stock) (ok : Counted s) : Counted t :=
  ok.congr (congrArg Stock.factory same) (congrArg Stock.counter same)

theorem design (ok : Counted s) (c : Cell) : 1000 ≤ s.factory.dcap c := (dcap_range ok.factory c).1

/-- One record is replaced by one within its bounds. -/
theorem setCounter (ok : Counted s) {c : Cell} {r : CounterRecord} (hr : CounterOk (s.factory.dcap c) r) :
    Counted (s.setCounter c r) where
  factory := ok.factory
  counter d := by
    rw [State.setCounter_counter, PerCell.get_set]
    split
    · rename_i same
      exact same ▸ hr
    · exact ok.counter d

/-- A power-on reset fills no cell, with CAP at the design capacity (R38). -/
theorem powerOn (ok : Counted s) : Counted s.powerOn where
  factory := ok.factory
  counter c := by
    have hd := ok.design c
    obtain ⟨low, le, ge⟩ := capRange hd
    have reset : s.powerOn.counter.get c = powerOnCounter (s.factory.dcap c) := by cases c <;> rfl
    rw [reset]
    refine ⟨⟨le, ge⟩, ⟨le_rfl, ?_⟩, by simp [powerOnCounter], ⟨le_rfl, ?_⟩⟩
    · show 0 ≤ s.factory.dcap c * 1000
      omega
    · show 0 ≤ 2 * s.factory.dcap c * 1000
      omega

theorem requestSeed (ok : Counted s) (c : Cell) : Counted (s.requestSeed c) := ok.setCounter (ok.counter c)

theorem gaugeSeed (ok : Counted s) (target : Byte) : Counted (s.gaugeSeed target).state := by
  have each (cells : List Cell) : Counted (s.forEach cells State.requestSeed) := by
    unfold State.forEach
    induction cells generalizing s with
    | nil => exact ok
    | cons c cells ih => exact ih (ok.requestSeed c)
  unfold State.gaugeSeed
  split
  · exact each _
  · exact ok

/-! ### CAP words that come into force (R36) -/

/-- The CAP words among those that are written lie in their range. -/
def CapsInRange (f : Factory) (offset n : Nat) (new : Words) : Prop :=
  (covers offset n 0 = true → capLo f.dcapN ≤ new.at 0 ∧ new.at 0 ≤ capHi f.dcapN)
    ∧ (covers offset n 1 = true → capLo f.dcapF ≤ new.at 1 ∧ new.at 1 ≤ capHi f.dcapF)

theorem capWritten_ok {design cap : Int} {covered : Bool} {r : CounterRecord} (hd : 1000 ≤ design)
    (hc : covered = true → capLo design ≤ cap ∧ cap ≤ capHi design) (ok : CounterOk design r) :
    CounterOk design (capWritten covered cap r) := by
  cases covered with
  | true => exact CounterRecord.setCap_ok hd (hc rfl) ok
  | false => exact ok

theorem force (ok : Counted s) {r : RecordId} {offset n : Nat} {new : Words}
    (caps : r = .gauge → CapsInRange s.factory offset n new) : Counted (s.force r offset n new) := by
  have factory : (s.force r offset n new).factory = s.factory := by rw [State.force_frame]
  by_cases hr : r = .gauge
  · subst hr
    obtain ⟨near, far⟩ := caps rfl
    refine ⟨ok.factory, fun c => ?_⟩
    cases c
    · exact capWritten_ok (ok.design .near) near (ok.counter .near)
    · exact capWritten_ok (ok.design .far) far (ok.counter .far)
  · exact ok.congr factory ((s.force_untouched offset n new (Ne.symm hr)).counter rfl)

/-- The adjusted words of a request bring only CAP words in range (R22, R190). -/
theorem broughtIn_caps (ok : Counted s) (offset : Nat) (words : List Word) :
    CapsInRange s.factory offset words.length (s.broughtIn .gauge offset words).1 := by
  have near {w : Word} {f : Field} (hf : f = ⟨1, capLo s.factory.dcapN, capHi s.factory.dcapN⟩) :
      capLo s.factory.dcapN ≤ f.adjust (f.read w) ∧ f.adjust (f.read w) ≤ capHi s.factory.dcapN := by
    subst hf
    obtain ⟨-, le, ge⟩ := capRange (ok.design .near)
    exact Field.adjust_mem (f := ⟨1, capLo s.factory.dcapN, capHi s.factory.dcapN⟩) (Int.le_trans le ge) _
  have far {w : Word} {f : Field} (hf : f = ⟨1, capLo s.factory.dcapF, capHi s.factory.dcapF⟩) :
      capLo s.factory.dcapF ≤ f.adjust (f.read w) ∧ f.adjust (f.read w) ≤ capHi s.factory.dcapF := by
    subst hf
    obtain ⟨-, le, ge⟩ := capRange (ok.design .far)
    exact Field.adjust_mem (f := ⟨1, capLo s.factory.dcapF, capHi s.factory.dcapF⟩) (Int.le_trans le ge) _
  refine ⟨fun covered => ?_, fun covered => ?_⟩
  · match offset, words with
    | 0, [] => exact nomatch covered
    | 0, w :: rest => exact near rfl
    | k + 1, words => exact absurd (covers_iff.1 covered).1 (by omega)
  · match offset, words with
    | 0, [] => exact nomatch covered
    | 0, [a] => exact nomatch covered
    | 0, a :: b :: rest => exact far rfl
    | 1, [] => exact absurd (covers_iff.1 covered).2 (by simp)
    | 1, w :: rest => exact far rfl
    | k + 2, words => exact absurd (covers_iff.1 covered).1 (by omega)

theorem bring (ok : Counted s) (r : RecordId) (offset : Nat) (words : List Word) :
    Counted (s.bring r offset words) :=
  ok.force (by rintro rfl; exact ok.broughtIn_caps offset words)

theorem setCopies (ok : Counted s) (r : RecordId) (v : Copies) : Counted (s.setCopies r v) := by
  refine ok.congr ?_ ?_ <;> rw [State.setCopies_frame]

theorem promote (ok : Counted s) (r : RecordId) (k : Copies) (source : ProfileSource) :
    Counted (s.promote r k source) := by
  refine ok.congr ?_ ?_ <;> rw [State.promote_frame]

/-- The default CAP is the design capacity (R22, R36). -/
theorem takeDefaults (ok : Counted s) (r : RecordId) : Counted (s.takeDefaults r) := by
  unfold State.takeDefaults
  split
  · exact ok.setCopies r _
  · refine ok.force ?_
    rintro rfl
    exact ⟨fun _ => (capRange (ok.design .near)).2, fun _ => (capRange (ok.design .far)).2⟩

theorem powerOnLoad (ok : Counted s) : Counted s.powerOnLoad.state := by
  have one (p : LoadProgress) (r : RecordId) (hp : Counted p.state) : Counted (p.take r).state := by
    unfold LoadProgress.take
    dsimp only
    split
    · split
      · split
        · exact hp.setCopies r _
        · exact hp.takeDefaults r
      · exact hp.bring r 0 _
    · exact hp.takeDefaults r
  have all (rs : List RecordId) (p : LoadProgress) (hp : Counted p.state) :
      Counted (rs.foldl LoadProgress.take p).state := by
    induction rs generalizing p with
    | nil => exact hp
    | cons r rs ih => exact ih (p.take r) (one p r hp)
  exact all RecordId.all ⟨s, []⟩ ok

theorem loadRequest (ok : Counted s) (mask : Word) : Counted (s.loadRequest mask).state := by
  have one (o : LoadOutcome) (r : RecordId) (ho : Counted o.state) : Counted (o.take r).state := by
    unfold LoadOutcome.take
    dsimp only
    split
    · split
      · exact ho.promote r _ .load
      · exact ho.bring r 0 _
    · exact ho
  have all (rs : List RecordId) (o : LoadOutcome) (ho : Counted o.state) :
      Counted (rs.foldl LoadOutcome.take o).state := by
    induction rs generalizing o with
    | nil => exact ho
    | cons r rs ih => exact ih (o.take r) (one o r ho)
  unfold State.loadRequest
  split
  · exact ok
  · exact all (recordsIn mask) ⟨s, [], [], []⟩ ok

theorem tableWrite (ok : Counted s) (final : Bool) (id offset flags : Byte) (words : List Word) :
    Counted (s.tableWrite final id offset flags words).state := by
  have record (r : RecordId) : Counted (s.writeRecord final id offset r words).state := by
    unfold State.writeRecord
    split
    · exact ok
    · split
      · split
        · exact ok.promote r _ .write
        · exact ok.setCopies r _
      · exact ok.bring r _ words
  unfold State.tableWrite
  split
  · exact ok
  · split
    · exact ok
    · split
      · exact record _
      all_goals exact ok

theorem storeRequest (ok : Counted s) (mask : Word) : Counted (s.storeRequest mask).state := by
  unfold State.storeRequest
  split
  · exact ok
  · show Counted (s.startStore (recordsIn mask))
    unfold State.startStore
    split <;> exact ok.congr rfl rfl

theorem cancelStore (ok : Counted s) : Counted s.cancelStore.state := by
  unfold State.cancelStore
  split <;> exact ok.congr rfl rfl

theorem softReset (ok : Counted s) : Counted s.softReset.state := by
  have reverted : Counted s.reopenQueue.revert := of_stock s.reopenQueue.revert_stock (ok.congr rfl rfl)
  show Counted s.reopenQueue.revert.discardPending
  generalize s.reopenQueue.revert = u at reverted ⊢
  exact reverted.congr rfl rfl

end Counted

/-- Every command keeps the counters within their bounds. -/
theorem exec_counted (s : State) (i : Instr) : Keeping Counted s (exec i s) := by
  have replied (a : Answer) (kind tag : Byte) (ok : Counted a.state) : Counted (a.reply kind tag) := ok.congr rfl rfl
  by_cases h : stirsStock i = false
  · exact (exec_leaves_stock s i h).keeping Counted.of_stock
  · cases i with
    | powerOnReset => exact .next Counted.powerOn
    | powerOnLoad =>
      have brought (ok : Counted s) := ok.powerOnLoad
      dsimp only [exec, execPowerOnLoad]
      generalize s.powerOnLoad = p at brought ⊢
      split
      · exact .next fun ok => (brought ok).congr rfl rfl
      · exact .stay
    | counterSetSteps c =>
      dsimp only [exec, execCounterSetSteps]
      split
      · exact .next fun ok => (ok.setCounter (CounterRecord.takeSet_ok (ok.design c) rfl (ok.counter c))).congr rfl rfl
      · exact .stay
    | fullMark c =>
      have filled (ok : Counted s) := ok.setCounter (CounterRecord.fullMark_ok (ok.design c) (ok.counter c))
      dsimp only [exec, execFullMark]
      split
      · split <;> exact .next fun ok => (filled ok).congr rfl rfl
      · exact .stay
    | recordCompletion =>
      dsimp only [exec, execRecordCompletion]
      repeat' split
      all_goals exact .next fun ok => ok.congr rfl rfl
    | gaugeSeed tag target => exact .request replied fun ok => ok.gaugeSeed target
    | tableWrite tag id offset flags words | tableWriteFinal tag id offset flags words =>
      exact .request replied fun ok => ok.tableWrite _ id offset flags words
    | store tag mask => exact .request replied fun ok => ok.storeRequest mask
    | load tag mask => exact .request replied fun ok => ok.loadRequest mask
    | storeCancel tag => exact .request replied Counted.cancelStore
    | softReset tag => exact .request replied Counted.softReset
    | _ => exact absurd rfl h

/-- Settles O52: every command keeps each record within its bounds, and time does not change one. -/
theorem countersStayWithinTheirBounds : Obligations.CountersStayWithinTheirBounds := by
  unfold Obligations.CountersStayWithinTheirBounds
  intro s t factory counters ht
  have ok : Counted s := (counted_iff s).2 ⟨factory, counters⟩
  have kept : Counted t :=
    step_keeps (fun _ _ h => h.congr rfl rfl) exec_counted (fun _ h => h.congr rfl rfl) ok ht
  exact ((counted_iff t).1 kept).2

end Sys2Proof.Machine
end

section
/-! PROOFS. The tables and the store: the words that come into force and into the pending copies lie in range, the
defaults pass every check, and every step keeps the tables valid and the store operation consistent (R44 to R51,
R189 to R192). -/

namespace Sys2Proof.Machine

/-! ### Words brought in (R44, R190) -/

/-- After a splice of adjusted words a word lies in its field's range, or it is the one that stood there. -/
theorem spliced_mem {fields : List Field} (hf : ∀ f ∈ fields, f.lo ≤ f.hi) {old : Words}
    (hlen : old.length = fields.length) {offset : Nat} (ho : offset ≤ fields.length) {words : List Word} {i : Nat}
    {f : Field} {x : Int} (hfi : fields[i]? = some f)
    (hx : (old.splice offset (adjustWords fields offset words))[i]? = some x) :
    (f.lo ≤ x ∧ x ≤ f.hi) ∨ ¬ (offset ≤ i ∧ i < offset + words.length) ∧ old[i]? = some x := by
  have count := adjustWords_length fields offset words
  have small : i < fields.length := (List.getElem?_eq_some_iff.1 hfi).1
  rw [Words.getElem?_splice (by omega)] at hx
  split at hx
  · rename_i hi
    obtain ⟨hi, -⟩ := hi
    simp only [adjustWords, List.getElem?_map, Option.map_eq_some_iff, List.getElem?_zip_eq_some,
      List.getElem?_drop, Prod.exists] at hx
    obtain ⟨g, word, ⟨hg, -⟩, rfl⟩ := hx
    rw [Nat.add_sub_cancel' hi, hfi] at hg
    obtain rfl := Option.some.inj hg
    exact .inl (Field.adjust_mem (hf f (List.mem_of_getElem? hfi)) _)
  · exact .inr ⟨by omega, hx⟩

theorem spliced_length {fields : List Field} {old : Words} (hlen : old.length = fields.length) {offset : Nat}
    (ho : offset ≤ fields.length) (words : List Word) :
    (old.splice offset (adjustWords fields offset words)).length = fields.length := by
  have count := adjustWords_length fields offset words
  rw [Words.splice_length (by omega), hlen]

/-- A whole record's adjusted words lie in range, whatever the words were (R44, R196). -/
theorem adjusted_inFields {fields : List Field} (hf : ∀ f ∈ fields, f.lo ≤ f.hi) {words : List Word}
    (hlen : words.length = fields.length) : InFields fields (adjustWords fields 0 words) := by
  rw [inFields_iff]
  refine ⟨by rw [adjustWords_length]; omega, fun i f x hfi hx => ?_⟩
  simp only [adjustWords, List.drop_zero, List.getElem?_map, Option.map_eq_some_iff,
    List.getElem?_zip_eq_some, Prod.exists] at hx
  obtain ⟨g, word, ⟨hg, -⟩, rfl⟩ := hx
  obtain rfl := Option.some.inj (hfi.symm.trans hg)
  exact Field.adjust_mem (hf f (List.mem_of_getElem? hfi)) _

/-! ### BALANCE (R108) -/

/-- The bound of XFER_STOP alone hangs on XFER_START. -/
theorem balanceFields_congr (a b : Int) {i : Nat} (h : i ≠ 4) : (balanceFields a)[i]? = (balanceFields b)[i]? := by
  match i, h with
  | 0, _ | 1, _ | 2, _ | 3, _ | 5, _ | 6, _ | 7, _ | 8, _ => rfl
  | 4, h => exact absurd rfl h
  | n + 9, _ => rfl

theorem balanceFields_nonempty {start : Int} (h : 50 ≤ start) : ∀ f ∈ balanceFields start, f.lo ≤ f.hi := by
  simp only [balanceFields, List.forall_mem_cons, List.not_mem_nil, false_implies, implies_true, and_true]
  omega

/-- XFER_START in range (R190). -/
theorem xferStart_mem {old : Words} (hold : InFields (balanceFields (Balance.xferStart old)) old) :
    50 ≤ Balance.xferStart old ∧ Balance.xferStart old ≤ 500 := by
  obtain ⟨hlen, hin⟩ := (inFields_iff _ _).1 hold
  have hlen : old.length = 9 := hlen
  have hlt : 3 < old.length := by omega
  have word := hin 3 ⟨1, 50, 500⟩ old[3] rfl (List.getElem?_eq_getElem hlt)
  simpa [Balance.xferStart, Words.at, List.getD_eq_getElem?_getD, hlt] using word

section
variable {old : Words} (hold : InFields (balanceFields (Balance.xferStart old)) old) {offset : Nat} (ho : offset ≤ 9)
  (words : List Word)
include hold ho

/-- The XFER_START that a write leaves is the one that bounds it, and lies in range. -/
theorem balanceStart_spec (fields : List Field) (hf : fields = balanceFields (balanceStart old offset words)) :
    (old.splice offset (adjustWords fields offset words))[3]? = some (balanceStart old offset words)
      ∧ 50 ≤ balanceStart old offset words ∧ balanceStart old offset words ≤ 500 := by
  have hlen : old.length = 9 := ((inFields_iff _ _).1 hold).1
  have count : (adjustWords fields offset words).length = min (9 - offset) words.length := by
    rw [adjustWords_length, hf]
    rfl
  rw [Words.getElem?_splice (by omega), count]
  unfold balanceStart at hf ⊢
  cases covered : covers offset words.length 3 with
  | true =>
    obtain ⟨hi, hlt⟩ := covers_iff.1 covered
    rw [if_pos covered] at hf
    rw [if_pos (by omega), if_pos rfl]
    obtain ⟨word, hword⟩ : ∃ w, words[3 - offset]? = some w := ⟨_, List.getElem?_eq_getElem (by omega)⟩
    have brought (a : Int) : (adjustWords (balanceFields a) offset words)[3 - offset]?
        = some ((⟨1, 50, 500⟩ : Field).adjust ((⟨1, 50, 500⟩ : Field).read word)) := by
      simp only [adjustWords, List.getElem?_map, Option.map_eq_some_iff, List.getElem?_zip_eq_some,
        List.getElem?_drop, Prod.exists, Nat.add_sub_cancel' hi]
      exact ⟨_, _, ⟨rfl, hword⟩, rfl⟩
    rw [hf, brought, List.getD_eq_getElem?_getD, brought]
    exact ⟨rfl, Field.adjust_mem (f := ⟨1, 50, 500⟩) (by decide) _⟩
  | false =>
    have outside : ¬ (offset ≤ 3 ∧ 3 < offset + words.length) :=
      fun h => Bool.eq_false_iff.1 covered (covers_iff.2 h)
    rw [if_neg (by omega), if_neg nofun]
    refine ⟨?_, xferStart_mem hold⟩
    simp [Balance.xferStart, Words.at, List.getD_eq_getElem?_getD, hlen]

/-- BALANCE stays in range, with XFER_STOP below the XFER_START that the write leaves (R108). -/
theorem bringBalance_inFields :
    InFields (balanceFields (Balance.xferStart (bringBalance old offset words).1))
      (bringBalance old offset words).1 := by
  obtain ⟨isStart, low, high⟩ := balanceStart_spec hold ho words _ rfl
  obtain ⟨hlen, hin⟩ := (inFields_iff _ _).1 hold
  have hlen : old.length = 9 := hlen
  unfold bringBalance
  dsimp only
  have unmoved : covers offset words.length 3 = false → balanceStart old offset words = Balance.xferStart old :=
    fun h => by rw [balanceStart, h]; rfl
  generalize balanceStart old offset words = start at isStart low high unmoved ⊢
  have newLen : (old.splice offset (adjustWords (balanceFields start) offset words)).length = 9 :=
    spliced_length (fields := balanceFields start) hlen ho words
  have others {i : Nat} (hi : i ≠ 4) {f : Field} {x : Int} (hfi : (balanceFields start)[i]? = some f)
      (hx : (old.splice offset (adjustWords (balanceFields start) offset words))[i]? = some x) :
      f.lo ≤ x ∧ x ≤ f.hi := by
    rcases spliced_mem (balanceFields_nonempty low) hlen ho hfi hx with h | ⟨-, h⟩
    · exact h
    · exact hin i f x ((balanceFields_congr _ _ hi).trans hfi) h
  have stop {x : Int} (hx : (old.splice offset (adjustWords (balanceFields start) offset words))[4]? = some x) :
      10 ≤ x ∧ (covers offset words.length 3 = false → x ≤ start - 20) := by
    rcases spliced_mem (balanceFields_nonempty low) hlen ho (i := 4) rfl hx with h | ⟨-, h⟩
    · exact ⟨h.1, fun _ => h.2⟩
    · obtain ⟨h1, h2⟩ := hin 4 _ x rfl h
      exact ⟨h1, fun missed => by rw [unmoved missed]; exact h2⟩
  generalize old.splice offset (adjustWords (balanceFields start) offset words) = new at isStart newLen others stop ⊢
  have stands : Balance.xferStart new = start := by
    simp [Balance.xferStart, Words.at, List.getD_eq_getElem?_getD, isStart]
  have atStop : new[4]? = some (Balance.xferStop new) := by
    simp [Balance.xferStop, Words.at, List.getD_eq_getElem?_getD, newLen]
  obtain ⟨least, most⟩ := stop atStop
  split
  · have lowered (i : Nat) : (new.splice 4 [start - 20])[i]? = if i = 4 then some (start - 20) else new[i]? := by
      rw [Words.getElem?_splice (by rw [newLen]; exact le_of_lt (by decide : 4 + 1 < 9))]
      by_cases hi : i = 4
      · subst hi
        rfl
      · rw [if_neg hi, if_neg (by simp; omega)]
    have stays : Balance.xferStart (new.splice 4 [start - 20]) = start := by
      rw [Balance.xferStart, Words.at, List.getD_eq_getElem?_getD, lowered, if_neg (by decide), isStart]
      rfl
    dsimp only
    rw [stays, inFields_iff]
    refine ⟨?_, fun i f x hfi hx => ?_⟩
    · rw [Words.splice_length (by rw [newLen]; exact le_of_lt (by decide : 4 + 1 < 9)), newLen]
      rfl
    · rw [lowered] at hx
      split at hx
      · rename_i hi
        subst hi
        obtain rfl := Option.some.inj hfi
        obtain rfl := Option.some.inj hx
        exact ⟨by show 10 ≤ start - 20; omega, le_rfl⟩
      · rename_i hi
        exact others hi hfi hx
  · rename_i within
    dsimp only
    rw [stands, inFields_iff]
    refine ⟨newLen, fun i f x hfi hx => ?_⟩
    by_cases hi : i = 4
    · subst hi
      obtain rfl := Option.some.inj hfi
      obtain rfl := Option.some.inj (atStop.symm.trans hx)
      refine ⟨least, ?_⟩
      show Balance.xferStop new ≤ start - 20
      cases covered : covers offset words.length 3 with
      | false => exact most covered
      | true =>
        rw [covered] at within
        simp at within
        omega
    · exact others hi hfi hx

end

/-! ### One record's table -/

/-- The words of a stored record's table that its own fields bound: GAUGE begins with both CAP, which the counters
hold (R36). -/
def heldElsewhere : RecordId → Nat
  | .gauge => 2
  | .profileN | .profileF | .bands | .limits | .balance | .protect | .calibration => 0

/-- The table of one record is in range, and validated where it has two copies (R44, R47 to R49, R190). -/
def State.RecordOk (s : State) (r : RecordId) : Prop :=
  match s.copiesOf r with
  | some k => CopiesOk s.factory r (s.fieldsOf r) k
  | none => InFields ((s.fieldsOf r).drop (heldElsewhere r)) ((s.recordWords r).drop (heldElsewhere r))

theorem tablesOk_iff (s : State) : TablesOk s.factory s.tables ↔ ∀ r, s.RecordOk r := by
  constructor
  · rintro ⟨profileN, profileF, bands, limits, balance, protect, cal, ocv⟩ r
    cases r with
    | profileN => exact profileN
    | profileF => exact profileF
    | bands => exact bands
    | limits => exact limits
    | balance => exact balance
    | protect => exact protect
    | calibration => exact cal
    | gauge => exact ocv
  · exact fun h => ⟨h .profileN, h .profileF, h .bands, h .limits, h .balance, h .protect, h .calibration, h .gauge⟩

/-- The fields of a table hang on its own words and on the build. -/
theorem State.fieldsOf_congr {s t : State} {r : RecordId} (words : t.recordWords r = s.recordWords r)
    (factory : t.factory = s.factory) : t.fieldsOf r = s.fieldsOf r := by
  cases r with
  | balance => exact congrArg (fun w => balanceFields (Balance.xferStart w)) words
  | _ => simp only [fieldsOf, factory]

theorem State.RecordOk.congr {s t : State} {r : RecordId} (ok : s.RecordOk r)
    (words : t.recordWords r = s.recordWords r) (copies : t.copiesOf r = s.copiesOf r)
    (factory : t.factory = s.factory) : t.RecordOk r := by
  unfold State.RecordOk at ok ⊢
  rw [copies, factory, words, State.fieldsOf_congr words factory]
  exact ok

/-- The number of words of a record's table (R189, R190). -/
theorem State.fieldsOf_length (s : State) (r : RecordId) : (s.fieldsOf r).length = r.length := by cases r <;> rfl

/-! ### The defaults (R43, R45, R196) -/

/-- VFULL of the default profile (R45). -/
theorem defaultVfull_mem {vmax : Int} (h : 4200 ≤ vmax ∧ vmax ≤ 4500) :
    4200 ≤ downTo 10 (min 4400 vmax) ∧ downTo 10 (min 4400 vmax) ≤ 4400
      ∧ downTo 10 (min 4400 vmax) ≤ vmax := by
  rw [downTo_eq_ediv (by decide)]
  omega

theorem defaultProfile_inFields {vmax imax : Int} (hv : 4200 ≤ vmax ∧ vmax ≤ 4500) (hi : 500 ≤ imax) :
    InFields profileFields (defaultProfile vmax imax) := by
  have vfull := defaultVfull_mem hv
  unfold defaultProfile
  generalize downTo 10 (min 4400 vmax) = v at vfull
  refine ⟨rfl, ?_⟩
  simp only [profileFields, List.replicate, List.cons_append, List.nil_append,
    List.zip_cons_cons, List.zip_nil_right, List.forall_mem_cons, List.not_mem_nil, false_implies, implies_true,
    and_true]
  omega

/-- The default profile passes the seven checks (R45, R48). -/
theorem defaultProfile_check {vmax imax : Int} (hv : 4200 ≤ vmax ∧ vmax ≤ 4500) (hi : 500 ≤ imax) :
    profileCheck vmax imax (defaultProfile vmax imax) = 0 := by
  have vfull := defaultVfull_mem hv
  unfold defaultProfile
  generalize downTo 10 (min 4400 vmax) = v at vfull
  have steps : rising [3000, 3900, 4150, v] = true := by simp [rising]; omega
  have currents : notRising [min 3000 imax, min 2000 imax, min 1200 imax] = true := by simp [notRising]
  have fits : decide (v ≤ vmax) = true := by simp; omega
  have most : decide (min 3000 imax ≤ imax) = true := by simp
  have pre : decide (150 ≤ min 3000 imax) = true := by simp; omega
  have term : decide (100 < min 1200 imax) = true := by simp; omega
  show firstFailing 1 [rising [3000, 3900, 4150, v], decide (v = v), decide (v ≤ vmax),
    notRising [min 3000 imax, min 2000 imax, min 1200 imax], decide (min 3000 imax ≤ imax),
    decide (150 ≤ min 3000 imax), decide (100 < min 1200 imax)] = 0
  rw [steps, currents, fits, most, pre, term, decide_eq_true rfl]
  rfl

theorem defaultProtect_inFields {vmax : Int} (hv : 4200 ≤ vmax ∧ vmax ≤ 4500) :
    InFields (protectFields vmax) defaultProtect := by
  refine ⟨rfl, ?_⟩
  simp only [protectFields, defaultProtect, List.replicate, List.cons_append, List.nil_append,
    List.zip_cons_cons, List.zip_nil_right, List.forall_mem_cons, List.not_mem_nil, false_implies, implies_true,
    and_true]
  omega

/-- The defaults of a table 1..3 are in range and validated (R43, R45, R55). -/
theorem cleanDefaults_ok (s : State) (build : FactoryOk s.factory) {r : RecordId} {k : Copies}
    (copies : s.copiesOf r = some k) :
    CopiesOk s.factory r (s.fieldsOf r) (cleanCopies (defaultWords s.factory r)) := by
  obtain ⟨-, -, vmax, near, far, -⟩ := build
  cases r with
  | profileN =>
    have ok := defaultProfile_inFields vmax near.1
    exact ⟨ok, ok, defaultProfile_check vmax near.1⟩
  | profileF =>
    have ok := defaultProfile_inFields vmax far.1
    exact ⟨ok, ok, defaultProfile_check vmax far.1⟩
  | bands =>
    have ok : InFields bandFields defaultBands := by decide
    exact ⟨ok, ok, (by decide : bandsCheck defaultBands = 0)⟩
  | _ => exact nomatch copies

/-! ### The store operation (R191, R192) -/

/-- A record's turn in the snapshot holds its words (R191). -/
theorem snapshotWords_of_mem (s : State) {rs : List RecordId} {r : RecordId} (h : r ∈ rs) :
    snapshotWords (s.snapshot rs) r = (s.recordWords r).map toWord := by
  have found : (s.snapshot rs).find? (fun p => p.1 == r) = some (r, (s.recordWords r).map toWord) := by
    induction rs with
    | nil => exact nomatch h
    | cons q rs ih =>
      by_cases same : q = r
      · subst same
        exact List.find?_cons_of_pos (beq_self_eq_true q)
      · rw [State.snapshot, List.map_cons, List.find?_cons_of_neg (by simpa using same)]
        exact ih ((List.mem_cons.1 h).resolve_left (Ne.symm same))
  rw [snapshotWords, found]
  rfl

/-- The records of a mask come in ascending id (R191). -/
theorem recordsIn_ascending (mask : Word) : ((recordsIn mask).map RecordId.num).Pairwise (· < ·) :=
  List.Pairwise.sublist (List.filter_sublist.map RecordId.num)
    (by decide : (RecordId.all.map RecordId.num).Pairwise (· < ·))

theorem slotsOk_set {st : Store} (ok : SlotsOk st) {r : RecordId} {sl : Slot} (h : sl.words.length = r.length)
    (state : StoreState) (defaulted : Word) : SlotsOk ⟨st.slots.set r sl, state, defaulted⟩ := by
  intro q hq
  dsimp only
  rw [PerRecord.get_set]
  split
  · rename_i same
    rw [same, h]
  · exact ok q hq

theorem erasedSlot_length (r : RecordId) : (erasedSlot r).words.length = r.length := List.length_replicate

/-! ### Tables and store together -/

/-- A build in its ranges, every table valid, and the store consistent. -/
structure Valid (s : State) : Prop where
  factory : FactoryOk s.factory
  tables : ∀ r, s.RecordOk r
  store : StoreOk s.store
  slots : SlotsOk s.store

theorem valid_iff (s : State) : Valid s
    ↔ FactoryOk s.factory ∧ TablesOk s.factory s.tables ∧ StoreOk s.store ∧ SlotsOk s.store := by
  rw [tablesOk_iff]
  exact ⟨fun h => ⟨h.factory, h.tables, h.store, h.slots⟩, fun ⟨h1, h2, h3, h4⟩ => ⟨h1, h2, h3, h4⟩⟩

namespace Valid
variable {s t : State}

/-- The predicate hangs on the build, the tables and the store alone. -/
theorem congr (ok : Valid s) (factory : t.factory = s.factory) (tables : t.tables = s.tables)
    (store : t.store = s.store) : Valid t := by
  have h := (valid_iff s).1 ok
  rw [← factory, ← tables, ← store] at h
  exact (valid_iff t).2 h

theorem of_stock (same : t.stock = s.stock) (ok : Valid s) : Valid t :=
  ok.congr (congrArg Stock.factory same) (congrArg Stock.tables same) (congrArg Stock.store same)

/-- One record's table is replaced, and the others are untouched. -/
theorem replaced (ok : Valid s) {r : RecordId} (factory : t.factory = s.factory) (store : t.store = s.store)
    (others : ∀ q, q ≠ r → Untouched q s t) (this : t.RecordOk r) : Valid t where
  factory := factory ▸ ok.factory
  tables q := by
    by_cases same : q = r
    · exact same ▸ this
    · exact (ok.tables q).congr (others q same).words (others q same).copies factory
  store := store ▸ ok.store
  slots := store ▸ ok.slots

theorem copies (ok : Valid s) {r : RecordId} {k : Copies} (h : s.copiesOf r = some k) :
    CopiesOk s.factory r (s.fieldsOf r) k := by
  have this := ok.tables r
  unfold State.RecordOk at this
  rwa [h] at this

theorem setCopies (ok : Valid s) {r : RecordId} {k v : Copies} (had : s.copiesOf r = some k)
    (hv : CopiesOk s.factory r (s.fieldsOf r) v) : Valid (s.setCopies r v) := by
  have frame := s.setCopies_frame r v
  have factory : (s.setCopies r v).factory = s.factory := by rw [frame]
  refine ok.replaced factory (by rw [frame]) (fun q other => s.setCopies_untouched v other) ?_
  unfold State.RecordOk
  rw [s.copiesOf_setCopies r v k had, factory, State.fieldsOf_of_copies had]
  exact hv

/-- The fields of a table that has two copies are not empty. -/
theorem fields_nonempty {r : RecordId} {k : Copies} (had : s.copiesOf r = some k) :
    ∀ f ∈ s.fieldsOf r, f.lo ≤ f.hi := by
  cases r with
  | profileN | profileF => exact (by decide : ∀ f ∈ profileFields, f.lo ≤ f.hi)
  | bands => exact (by decide : ∀ f ∈ bandFields, f.lo ≤ f.hi)
  | _ => exact nomatch had

/-- A write leaves the active copy and brings the pending one words in range (R44, R46). -/
theorem write (ok : Valid s) {r : RecordId} {k : Copies} (had : s.copiesOf r = some k) {offset : Nat}
    (ho : offset ≤ r.length) (words : List Word) :
    CopiesOk s.factory r (s.fieldsOf r) (k.write (s.fieldsOf r) offset words) := by
  obtain ⟨active, pending, check⟩ := ok.copies had
  unfold CopiesOk
  rw [k.active_write, k.pending_write]
  exact ⟨active, inFields_splice (fields_nonempty had) pending (by rwa [s.fieldsOf_length]) words, check⟩

/-- A pending copy in range is promoted where it passes its checks, and kept where it does not (R47). -/
theorem promote (ok : Valid s) {r : RecordId} {k₀ k : Copies} (had : s.copiesOf r = some k₀)
    (hk : CopiesOk s.factory r (s.fieldsOf r) k) (source : ProfileSource) : Valid (s.promote r k source) := by
  obtain ⟨active, pending, check⟩ := hk
  by_cases passes : checkOf s.factory r k.pending = 0
  · rw [s.promote_passes passes]
    exact (ok.setCopies had (v := ⟨k.pending, k.pending, false⟩) ⟨pending, pending, passes⟩).congr rfl rfl rfl
  · rw [s.promote_fails passes]
    exact (ok.setCopies had (v := ⟨k.active, k.pending, true⟩) ⟨active, pending, check⟩).congr rfl rfl rfl

/-! ### Tables 4..8 -/

/-- A table 4..8 whose new words are in range comes into force (R190). -/
theorem force (ok : Valid s) {r : RecordId} {offset n : Nat} {new : Words}
    (this : (s.force r offset n new).RecordOk r) : Valid (s.force r offset n new) := by
  have frame := s.force_frame r offset n new
  exact ok.replaced (by rw [frame]) (by rw [frame]) (fun q other => s.force_untouched offset n new other) this

theorem inForce (ok : Valid s) {r : RecordId} (four : 4 ≤ r.num) :
    InFields ((s.fieldsOf r).drop (heldElsewhere r)) ((s.recordWords r).drop (heldElsewhere r)) := by
  have this := ok.tables r
  unfold State.RecordOk at this
  rwa [s.copiesOf_eq_none four] at this

/-- The OCV words that a write of GAUGE leaves (R28, R190). -/
theorem ocv_spliced (ok : Valid s) {offset : Nat} (ho : offset ≤ 13) (words : List Word) :
    InFields (List.replicate 11 ⟨1, 2500, 4500⟩) ((s.broughtIn .gauge offset words).1.drop 2) := by
  have wide (design : Int) (h : 1000 ≤ design) : capLo design ≤ capHi design := by
    obtain ⟨-, le, ge⟩ := capRange h
    exact le.trans ge
  obtain ⟨near, far, -⟩ := ok.factory
  have nonempty : ∀ f ∈ gaugeFields s.factory.dcapN s.factory.dcapF, f.lo ≤ f.hi := by
    intro f hf
    simp only [gaugeFields, List.mem_append, List.mem_cons, List.not_mem_nil, or_false, List.mem_replicate] at hf
    rcases hf with (rfl | rfl) | ⟨-, rfl⟩
    · exact wide _ near.1
    · exact wide _ far.1
    · decide
  obtain ⟨hlen, hin⟩ := (inFields_iff _ _).1 (ok.inForce (r := .gauge) (by decide))
  have hlen : s.tables.ocv.length = 11 := hlen
  have whole : s.gaugeWords.length = (gaugeFields s.factory.dcapN s.factory.dcapF).length :=
    congrArg (· + 2) hlen
  rw [inFields_iff]
  refine ⟨?_, fun i f x hfi hx => ?_⟩
  · rw [List.length_drop]
    exact congrArg (· - 2) (spliced_length whole ho words)
  · rw [List.getElem?_drop, Nat.add_comm] at hx
    rcases spliced_mem nonempty whole ho (i := i + 2) hfi hx with h | ⟨-, h⟩
    · exact h
    · exact hin i f x hfi h

theorem bring (ok : Valid s) {r : RecordId} (four : 4 ≤ r.num) {offset : Nat} (ho : offset ≤ r.length)
    (words : List Word) : Valid (s.bring r offset words) := by
  refine ok.force ?_
  have this := ok.inForce four
  cases r with
  | profileN | profileF | bands => exact absurd four (by decide)
  | limits =>
    have new := inFields_splice limitsFields_nonempty (this : InFields limitsFields s.tables.limits) ho words
    unfold State.force
    dsimp only
    rw [State.forceLimits_frame]
    exact new
  | balance => exact bringBalance_inFields this ho words
  | protect =>
    obtain ⟨-, -, vmax, -⟩ := ok.factory
    refine inFields_splice (fields := protectFields s.factory.vmax) ?_ this ho words
    simp only [protectFields, List.replicate, List.cons_append, List.nil_append, List.forall_mem_cons,
      List.not_mem_nil, false_implies, implies_true, and_true]
    omega
  | calibration => exact inFields_splice (fields := calFields) (by decide) this ho words
  | gauge => exact ok.ocv_spliced ho words

/-- The defaults of a record come into force (R196). -/
theorem takeDefaults (ok : Valid s) (r : RecordId) : Valid (s.takeDefaults r) := by
  unfold State.takeDefaults
  split
  · rename_i k had
    exact ok.setCopies had (cleanDefaults_ok s ok.factory had)
  · rename_i none
    obtain ⟨-, -, vmax, -⟩ := ok.factory
    cases r with
    | profileN | profileF | bands => exact nomatch none
    | limits =>
      refine ok.force ?_
      unfold State.force
      dsimp only
      rw [State.forceLimits_frame]
      exact (by decide : InFields limitsFields defaultLimits)
    | balance => exact ok.force (by decide : InFields (balanceFields 100) defaultBalance)
    | protect => exact ok.force (defaultProtect_inFields vmax)
    | calibration => exact ok.force (by decide : InFields calFields defaultCal)
    | gauge => exact ok.force (by decide : InFields (List.replicate 11 ⟨1, 2500, 4500⟩) defaultOcv)

/-! ### Power-on and the loads -/

theorem powerOn (ok : Valid s) : Valid s.powerOn := by
  have defaults (r : RecordId) : s.powerOn.RecordOk r := by
    have build := ok.factory
    obtain ⟨-, -, vmax, -⟩ := ok.factory
    cases r with
    | profileN => exact cleanDefaults_ok s build (r := .profileN) rfl
    | profileF => exact cleanDefaults_ok s build (r := .profileF) rfl
    | bands => exact cleanDefaults_ok s build (r := .bands) rfl
    | limits => exact (by decide : InFields limitsFields defaultLimits)
    | balance => exact (by decide : InFields (balanceFields 100) defaultBalance)
    | protect => exact defaultProtect_inFields vmax
    | calibration => exact (by decide : InFields calFields defaultCal)
    | gauge => exact (by decide : InFields (List.replicate 11 ⟨1, 2500, 4500⟩) defaultOcv)
  exact ⟨ok.factory, defaults, trivial, ok.slots⟩

theorem slotWords (ok : Valid s) (r : RecordId) : (s.store.slots.get r).words.length = r.length :=
  ok.slots r r.mem_all

theorem four_of_none {r : RecordId} (h : s.copiesOf r = none) : 4 ≤ r.num := by
  cases r with
  | profileN | profileF | bands => exact nomatch h
  | _ => decide

theorem powerOnLoad (ok : Valid s) : Valid s.powerOnLoad.state := by
  have one (p : LoadProgress) (r : RecordId) (hp : Valid p.state) : Valid (p.take r).state := by
    unfold LoadProgress.take
    dsimp only
    split
    · split
      · rename_i k had
        split
        · rename_i passes
          have words := adjusted_inFields (fields_nonempty had)
            ((hp.slotWords r).trans (p.state.fieldsOf_length r).symm)
          exact hp.setCopies had ⟨words, words, passes⟩
        · exact hp.takeDefaults r
      · rename_i none
        exact hp.bring (four_of_none none) (Nat.zero_le _) _
    · exact hp.takeDefaults r
  have all (rs : List RecordId) (p : LoadProgress) (hp : Valid p.state) :
      Valid (rs.foldl LoadProgress.take p).state := by
    induction rs generalizing p with
    | nil => exact hp
    | cons r rs ih => exact ih (p.take r) (one p r hp)
  exact all RecordId.all ⟨s, []⟩ ok

theorem loadRequest (ok : Valid s) (mask : Word) : Valid (s.loadRequest mask).state := by
  have one (o : LoadOutcome) (r : RecordId) (ho : Valid o.state) : Valid (o.take r).state := by
    unfold LoadOutcome.take
    dsimp only
    split
    · split
      · rename_i k had
        exact ho.promote had (ho.write had (Nat.zero_le _) _) .load
      · rename_i none
        exact ho.bring (four_of_none none) (Nat.zero_le _) _
    · exact ho
  have all (rs : List RecordId) (o : LoadOutcome) (ho : Valid o.state) :
      Valid (rs.foldl LoadOutcome.take o).state := by
    induction rs generalizing o with
    | nil => exact ho
    | cons r rs ih => exact ih (o.take r) (one o r ho)
  unfold State.loadRequest
  split
  · exact ok
  · exact all (recordsIn mask) ⟨s, [], [], []⟩ ok

theorem tableWrite (ok : Valid s) (final : Bool) (id offset flags : Byte) (words : List Word) :
    Valid (s.tableWrite final id offset flags words).state := by
  have record (r : RecordId) : Valid (s.writeRecord final id offset r words).state := by
    unfold State.writeRecord
    split
    · exact ok
    · have ho : offset.toNat ≤ r.length := by omega
      split
      · rename_i k had
        split
        · exact ok.promote had (ok.write had ho words) .write
        · exact ok.setCopies had (ok.write had ho words)
      · rename_i none
        exact ok.bring (four_of_none none) ho words
  unfold State.tableWrite
  split
  · exact ok
  · split
    · exact ok
    · split
      · exact record _
      all_goals exact ok

theorem discardPending (ok : Valid s) : Valid s.discardPending := by
  have clean {r : RecordId} {k : Copies} (had : s.copiesOf r = some k) :
      CopiesOk s.factory r (s.fieldsOf r) k.discard := by
    obtain ⟨active, -, check⟩ := ok.copies had
    exact ⟨active, active, check⟩
  refine ⟨ok.factory, fun r => ?_, ok.store, ok.slots⟩
  cases r with
  | profileN => exact clean (r := .profileN) rfl
  | profileF => exact clean (r := .profileF) rfl
  | bands => exact clean (r := .bands) rfl
  | limits => exact ok.tables .limits
  | balance => exact ok.tables .balance
  | protect => exact ok.tables .protect
  | calibration => exact ok.tables .calibration
  | gauge => exact ok.tables .gauge

theorem softReset (ok : Valid s) : Valid s.softReset.state := by
  have reverted : Valid s.reopenQueue.revert := of_stock s.reopenQueue.revert_stock (ok.congr rfl rfl rfl)
  exact reverted.discardPending

/-! ### The store operation -/

theorem setStore (ok : Valid s) {st : Store} (store : StoreOk st) (slots : SlotsOk st) : Valid (s.setStore st) where
  factory := ok.factory
  tables r := (ok.tables r).congr (by cases r <;> rfl) (by cases r <;> rfl) rfl
  store := store
  slots := slots

/-- The words of a record's table are as many as its length (R189). -/
theorem recordWords_length (ok : Valid s) (r : RecordId) : (s.recordWords r).length = r.length := by
  have this := (valid_iff s).1 ok
  obtain ⟨-, ⟨⟨profileN, -⟩, ⟨profileF, -⟩, ⟨bands, -⟩, limits, balance, protect, cal, ocv⟩, -⟩ := this
  cases r with
  | profileN => exact profileN.1
  | profileF => exact profileF.1
  | bands => exact bands.1
  | limits => exact limits.1
  | balance => exact balance.1
  | protect => exact protect.1
  | calibration => exact cal.1
  | gauge => exact congrArg (· + 2) ocv.1

theorem storeRequest (ok : Valid s) (mask : Word) : Valid (s.storeRequest mask).state := by
  unfold State.storeRequest
  split
  · exact ok
  · show Valid (s.startStore (recordsIn mask))
    have ascending := recordsIn_ascending mask
    generalize recordsIn mask = rs at ascending ⊢
    cases rs with
    | nil => exact ok
    | cons r rest =>
      refine ok.setStore ⟨ascending, fun q hq => ?_, nofun, PerRecord.get_set_same _ _ _, nofun⟩
        (slotsOk_set ok.slots (erasedSlot_length r) _ _)
      rw [snapshotWords_of_mem s hq, List.length_map]
      exact ok.recordWords_length q

theorem cancelStore (ok : Valid s) : Valid s.cancelStore.state := by
  have storeOk := ok.store
  unfold State.cancelStore
  split
  · rename_i w hw
    rw [StoreOk, hw] at storeOk
    refine ok.setStore ?_ ok.slots
    unfold Writing.cancelled
    split
    · exact storeOk
    · obtain ⟨-, whole, done, erased, -⟩ := storeOk
      exact ⟨List.pairwise_singleton _ _, fun q hq => whole q (by simp_all), done, erased, fun _ => rfl⟩
  · exact ok

theorem recordCompletion (ok : Valid s) {w : Writing} (hw : s.store.state = .writing w) :
    ∀ t, execRecordCompletion s = .next t → Valid t := by
  have storeOk := ok.store
  rw [StoreOk, hw] at storeOk
  obtain ⟨ascending, whole, done, -, -⟩ := storeOk
  have written := slotsOk_set (sl := writtenSlot w.inFlight (snapshotWords w.snapshot w.inFlight)) ok.slots
    (whole w.inFlight (by simp))
  intro t ht
  by_cases hlast : w.cancel = true ∨ w.todo = []
  · rw [execRecordCompletion_ends hw hlast] at ht
    injection ht with ht
    subst ht
    exact (ok.setStore (st := ⟨_, .idle, s.store.defaulted⟩) trivial (written _ _)).congr rfl rfl rfl
  · obtain ⟨hc, ht'⟩ := not_or.1 hlast
    obtain ⟨next, rest, todo⟩ := List.exists_cons_of_ne_nil ht'
    have hc : w.cancel = false := Bool.eq_false_iff.2 hc
    rw [execRecordCompletion_goesOn hw hc todo] at ht
    injection ht with ht
    subst ht
    rw [todo] at ascending whole
    obtain ⟨before, later⟩ := List.pairwise_cons.1 ascending
    have rises : w.inFlight.num < next.num := before next.num (by simp)
    refine (ok.setStore (st := ⟨_, .writing { w with
        inFlight := next, todo := rest, completed := w.completed ++ [w.inFlight] }, s.store.defaulted⟩) ?_
      (slotsOk_set (written .idle s.store.defaulted) (erasedSlot_length next) _ _)).congr rfl rfl rfl
    refine ⟨later, fun q hq => whole q (List.mem_cons_of_mem _ hq), fun q hq => ?_,
      PerRecord.get_set_same _ _ _, fun cancelled => absurd (hc.symm.trans cancelled) nofun⟩
    rcases List.mem_append.1 hq with earlier | last
    · exact (done q earlier).trans rises
    · rw [List.mem_singleton.1 last]
      exact rises

end Valid

/-- Every command keeps the tables valid and the store consistent. -/
theorem exec_valid (s : State) (i : Instr) : Keeping Valid s (exec i s) := by
  have replied (a : Answer) (kind tag : Byte) (ok : Valid a.state) : Valid (a.reply kind tag) := ok.congr rfl rfl rfl
  by_cases h : stirsStock i = false
  · exact (exec_leaves_stock s i h).keeping Valid.of_stock
  · cases i with
    | powerOnReset => exact .next Valid.powerOn
    | powerOnLoad =>
      have brought (ok : Valid s) := ok.powerOnLoad
      dsimp only [exec, execPowerOnLoad]
      generalize s.powerOnLoad = p at brought ⊢
      split
      · refine .next fun ok => ?_
        have valid := brought ok
        exact (valid.setStore (st := { p.state.store with defaulted := recordSet p.defaulted })
          valid.store valid.slots).congr rfl rfl rfl
      · exact .stay
    | counterSetSteps c =>
      dsimp only [exec, execCounterSetSteps]
      split
      · exact .next fun ok => ok.congr rfl rfl rfl
      · exact .stay
    | fullMark c =>
      dsimp only [exec, execFullMark]
      repeat' split
      all_goals exact .next fun ok => ok.congr rfl rfl rfl
    | recordCompletion =>
      cases hw : s.store.state with
      | idle =>
        have idle : exec .recordCompletion s = .next s := by simp only [exec, execRecordCompletion, hw]
        rw [idle]
        exact .stay
      | writing w => exact fun ok => ok.recordCompletion hw
    | gaugeSeed tag target =>
      refine .request replied fun ok => ?_
      unfold State.gaugeSeed
      split
      · rename_i cells _
        have same := s.forEach_view (fun u => (u.factory, u.tables, u.store)) cells
          (f := State.requestSeed) (fun c u => rfl)
        obtain ⟨factory, tables, store⟩ := by simpa only [Prod.mk.injEq] using same
        exact ok.congr factory tables store
      · exact ok
    | tableWrite tag id offset flags words | tableWriteFinal tag id offset flags words =>
      exact .request replied fun ok => ok.tableWrite _ id offset flags words
    | store tag mask => exact .request replied fun ok => ok.storeRequest mask
    | load tag mask => exact .request replied fun ok => ok.loadRequest mask
    | storeCancel tag => exact .request replied Valid.cancelStore
    | softReset tag => exact .request replied Valid.softReset
    | _ => exact absurd rfl h

/-- Settles O53: every command keeps the tables valid and the store consistent, and time changes neither. -/
theorem tablesAndStoreStayValid : Obligations.TablesAndStoreStayValid := by
  unfold Obligations.TablesAndStoreStayValid
  intro s t ok ht
  rw [← valid_iff] at ok ⊢
  exact step_keeps (fun _ _ h => h.congr rfl rfl rfl) exec_valid (fun _ h => h.congr rfl rfl rfl) ok ht

end Sys2Proof.Machine
end

section
/-! PROOFS. A sequencer's fields agree with its state, through every step of a set and every event between sets; and
every step keeps a cell charging only under an ACTIVE input, but for a withdrawal that waits (R57, R64, R75, R137). -/

namespace Sys2Proof.Machine

/-! ### The fields of a sequencer's record (R57, R64, R73, R74) -/

theorem downTo_mod (x : Int) : downTo 25 x % 25 = 0 := (downTo_bounds x).1

/-- A record of a state outside charging, whose timers stand at 0 where the state has none (R63, R64, R71, R73). -/
theorem seqOk_resting {r : SeqRecord} (state : r.state.charging = false) (k : r.k = 0)
    (full : r.full ≠ .none ↔ r.state = .full) (adv : r.adv = 0) (term : r.term = 0) (demand : r.demand = 0)
    (band : r.band ≤ 6) (timers : r.state = .idle ∨ r.state = .absent ∨ r.state = .full → r.pre = 0 ∧ r.fast = 0) :
    SeqOk r := by
  refine ⟨?_, fun h => absurd k h, full, fun _ => demand, by rw [demand]; rfl, band, fun h => absurd adv h,
    fun h => absurd term h, by omega, by omega, timers⟩
  rw [state]
  exact nofun

namespace Seq
variable {e : SeqEnv} {r : SeqRecord}

theorem toAbsent_ok (band : r.band ≤ 6) : SeqOk (toAbsent r) :=
  seqOk_resting rfl rfl (by simp [toAbsent]) rfl rfl rfl band fun _ => ⟨rfl, rfl⟩

theorem toIdle_ok (band : r.band ≤ 6) : SeqOk (toIdle r) :=
  seqOk_resting rfl rfl (by simp [toIdle]) rfl rfl rfl band fun _ => ⟨rfl, rfl⟩

theorem toPaused_ok (band : r.band ≤ 6) : SeqOk (toPaused r) :=
  seqOk_resting rfl rfl (by simp [toPaused]) rfl rfl rfl band (by simp [toPaused])

theorem toFull_ok {why : FullReason} (hw : why ≠ .none) (band : r.band ≤ 6) : SeqOk (toFull why r) :=
  seqOk_resting rfl rfl (by simp [toFull, hw]) rfl rfl rfl band fun _ => ⟨rfl, rfl⟩

theorem toExpired_ok (band : r.band ≤ 6) : SeqOk (toExpired r) :=
  seqOk_resting rfl rfl (by simp [toExpired]) rfl rfl rfl band (by simp [toExpired])

theorem toPrecharge_ok (free : r.reasons.any = false) (band : r.band ≤ 6) : SeqOk (toPrecharge e r) := by
  simp [SeqOk, toPrecharge, free, band, SeqState.charging, downTo_mod]

theorem toFast_ok (free : r.reasons.any = false) (band : r.band ≤ 6) (k : Nat) : SeqOk (toFast e k r) := by
  simp [SeqOk, toFast, stageCurrent, free, band, SeqState.charging, downTo_mod]

theorem toTaper_ok (free : r.reasons.any = false) (band : r.band ≤ 6) : SeqOk (toTaper e r) := by
  simp [SeqOk, toTaper, free, band, SeqState.charging, downTo_mod]

theorem place_ok (free : r.reasons.any = false) (band : r.band ≤ 6) : SeqOk (place e r) := by
  unfold place
  split
  · exact toFast_ok free band _
  · exact toTaper_ok free band

/-- An entry evaluation, whatever the record held before (R66). -/
theorem entry_ok (band : r.band ≤ 6) : SeqOk (entry e r) := by
  unfold entry
  split
  · exact toAbsent_ok band
  · split
    · exact toPaused_ok band
    · rename_i barred
      have free : r.reasons.any = false := Bool.eq_false_iff.2 barred
      split
      · exact toPrecharge_ok free band
      · exact place_ok free band

theorem entryReset_ok (band : r.band ≤ 6) : SeqOk (entryReset e r) :=
  entry_ok (r := { r with pre := 0, fast := 0 }) band

/-! ### The band (R61, R62) -/

theorem plainBand_le (bands : Words) (t : Int) : plainBand bands t ≤ 6 := by
  unfold plainBand
  cases h : [1, 2, 3, 4, 5].find? fun i => decide (t < Bands.tHi bands i) with
  | none => exact le_rfl
  | some i =>
    have mem := List.mem_of_find?_eq_some h
    simp only [List.mem_cons, List.not_mem_nil, or_false] at mem
    show i ≤ 6
    omega

theorem newBand_le {old : Nat} (h : old ≤ 6) (bands : Words) (t : Option Int) : newBand bands old t ≤ 6 := by
  unfold newBand
  split
  · omega
  · split
    · exact plainBand_le bands _
    · split
      · exact h
      · exact plainBand_le bands _

/-! ### A change of the pause reasons (R62, R64, R65) -/

/-- A record whose fields agree but for the pause reasons, which may have changed. -/
abbrev Agrees (r : SeqRecord) : Prop := SeqOk { r with reasons := ⟨false, false, false⟩ }

theorem Agrees.of_ok (ok : SeqOk r) : Agrees r :=
  ⟨fun _ => rfl, ok.2⟩

/-- Fields that agree, with no pause reason under a charge. -/
theorem Agrees.ok (h : Agrees r) (free : r.state.charging = true → r.reasons.any = false) : SeqOk r := ⟨free, h.2⟩

theorem Agrees.withReasons (h : Agrees r) (new : PauseReasons) : Agrees { r with reasons := new } := h

theorem Agrees.band_le (h : Agrees r) : r.band ≤ 6 := by
  obtain ⟨-, -, -, -, -, band, -⟩ := h
  exact band

theorem Agrees.bandStep (h : Agrees r) (t : Option Int) (coupled : Bool) : Agrees (bandStep e t coupled r) := by
  obtain ⟨-, k, full, rest, demand, band, others⟩ := h
  exact ⟨fun _ => rfl, k, full, rest, demand, newBand_le band _ _, others⟩

theorem Agrees.promotedReason (h : Agrees r) (which : Promoted) : Agrees (promotedReason e which r) := by
  cases which <;> exact h

/-- After a change of the reasons is taken the fields agree again: a barred charge has been paused (R64). -/
theorem afterReasons_ok (h : Agrees r) (old : PauseReasons) : SeqOk (afterReasons e old r) := by
  unfold afterReasons
  split
  · exact toPaused_ok h.band_le
  · rename_i free
    split
    · exact entry_ok h.band_le
    · exact h.ok fun charging => by simpa [charging] using free

/-! ### The steps of a set (R59) -/

theorem presence_agrees (h : Agrees r) : Agrees (presence e r) := by
  unfold presence
  split
  · exact .of_ok (toAbsent_ok h.band_le)
  · split
    · split
      · exact .of_ok (entryReset_ok (r := toIdle r) h.band_le)
      · exact .of_ok (toIdle_ok h.band_le)
    · exact h

/-- A record that presence moves to another state is one that it enters (R63). -/
theorem presence_ok (band : r.band ≤ 6) (moved : (presence e r).state ≠ r.state) : SeqOk (presence e r) := by
  unfold presence at moved ⊢
  split
  · exact toAbsent_ok band
  · rename_i stays
    rw [if_neg stays] at moved
    split
    · split
      · exact entryReset_ok (r := toIdle r) band
      · exact toIdle_ok band
    · rename_i stays
      rw [if_neg stays] at moved
      exact absurd rfl moved

theorem settleState_ok (ok : SeqOk r) (t : Option Int) (coupled : Bool) : SeqOk (settleState e t coupled r) := by
  have agrees := (Agrees.of_ok ok).bandStep (e := e) t coupled
  unfold settleState
  dsimp only
  split
  · rename_i moved
    exact presence_ok agrees.band_le moved
  · exact afterReasons_ok (presence_agrees agrees) _

theorem SeqOk.band_le (ok : SeqOk r) : r.band ≤ 6 := (Agrees.of_ok ok).band_le

/-- A charging record stays in agreement with other values on its timers (R73). -/
theorem timers_ok (ok : SeqOk r) (charging : r.state.charging = true) (pre fast : Int) :
    SeqOk { r with pre := pre, fast := fast } := by
  obtain ⟨free, k, full, rest, demand, band, adv, term, advs, terms, -⟩ := ok
  refine ⟨free, k, full, rest, demand, band, adv, term, advs, terms, ?_⟩
  rintro (h | h | h) <;> rw [show r.state = _ from h] at charging <;> exact nomatch charging

theorem expireIfDue_ok (ok : SeqOk r) : SeqOk (expireIfDue e r) := by
  have band := SeqOk.band_le ok
  unfold expireIfDue
  split
  case h_1 | h_2 | h_3 =>
    split
    · exact toExpired_ok band
    · exact ok
  all_goals exact ok

theorem timerStep_ok (ok : SeqOk r) (dt : Int) : SeqOk (timerStep e dt r) := by
  unfold timerStep
  split
  case h_1 state => exact expireIfDue_ok (timers_ok ok (by rw [state]; rfl) _ r.fast)
  case h_2 state | h_3 state => exact expireIfDue_ok (timers_ok ok (by rw [state]; rfl) r.pre _)
  all_goals exact ok

theorem fastStep_ok (ok : SeqOk r) (fast : r.state = .fast) : SeqOk (fastStep e r) := by
  obtain ⟨free, k, full, rest, demand, band, -, term, -, terms, timers⟩ := ok
  have free' : r.reasons.any = false := free (by rw [fast]; rfl)
  unfold fastStep
  split
  · split
    · exact ⟨free, k, full, rest, demand, band, fun _ => fast, term, by show r.adv + 1 ≤ 2; omega, terms, timers⟩
    · split
      · exact toFast_ok free' band _
      · exact toTaper_ok free' band
  · exact ⟨free, k, full, rest, demand, band, fun h => absurd rfl h, term, by show 0 ≤ 2; omega, terms, timers⟩

theorem taperStep_ok (ok : SeqOk r) (taper : r.state = .taper) : SeqOk (taperStep e r).1 := by
  obtain ⟨free, k, full, -, -, band, adv, -, advs, -, timers⟩ := ok
  have charging : r.state.charging ≠ false := by rw [taper]; exact nofun
  have law : taperLaw e r % 25 = 0 := downTo_mod _
  unfold taperStep
  split
  · split
    · exact ⟨free, k, full, fun h => absurd h charging, law, band, adv, fun _ => taper, advs,
        by show r.term + 1 ≤ 3; omega, timers⟩
    · exact toFull_ok nofun band
  · exact ⟨free, k, full, fun h => absurd h charging, law, band, adv, fun h => absurd rfl h, advs,
      by show 0 ≤ 3; omega, timers⟩

theorem transition_ok (ok : SeqOk r) : SeqOk (transition e r).1 := by
  have band := SeqOk.band_le ok
  have free := ok.1
  unfold transition
  split
  · exact toFull_ok nofun band
  · split
    case h_1 state =>
      dsimp only
      split
      · exact place_ok (free (by rw [state]; rfl)) band
      · exact ok
    case h_2 state => exact fastStep_ok ok state
    case h_3 state => exact taperStep_ok ok state
    case h_4 =>
      dsimp only
      split
      · exact entryReset_ok band
      · exact ok
    all_goals exact ok

/-- D as the state gives it agrees with the state (R74). -/
theorem demandStep_ok (ok : SeqOk r) : SeqOk (demandStep e r) := by
  obtain ⟨free, k, full, rest, demand, others⟩ := ok
  refine ⟨free, k, full, fun resting => ?_, ?_, others⟩
  · show demandOf e r = 0
    have resting : r.state.charging = false := resting
    cases state : r.state with
    | precharge | fast | taper =>
      rw [state] at resting
      exact nomatch resting
    | absent | idle | full | paused | expired => simp only [demandOf, state]
  · show demandOf e r % 25 = 0
    unfold demandOf stageCurrent
    split
    case h_1 | h_2 => exact downTo_mod _
    case h_3 => exact demand
    all_goals rfl

theorem takeSet_ok (ok : SeqOk r) (t : Option Int) (coupled : Bool) (dt : Int) :
    SeqOk (takeSet e t coupled dt r).1 := by
  have settled := settleState_ok (e := e) ok t coupled
  unfold takeSet
  dsimp only
  split
  · split
    · exact demandStep_ok (timerStep_ok settled dt)
    · exact demandStep_ok (transition_ok (timerStep_ok settled dt))
  · exact demandStep_ok settled

/-! ### Events between sets (R71, R76) -/

theorem setCeiling_ok (ok : SeqOk r) (v : Int) : SeqOk (setCeiling e v r) := by
  have band := SeqOk.band_le ok
  unfold setCeiling
  split
  · exact ok
  · dsimp only
    split
    · exact toFull_ok nofun band
    · exact ok

theorem promotionExpiry_ok (ok : SeqOk r) : SeqOk (promotionExpiry e r) := by
  have band := SeqOk.band_le ok
  unfold promotionExpiry
  split
  · exact toExpired_ok band
  · exact ok

theorem promotedReason_ok (ok : SeqOk r) (resting : r.state.charging = false) (which : Promoted) :
    SeqOk (promotedReason e which r) := by
  refine ((Agrees.of_ok ok).promotedReason which).ok fun charging => ?_
  have same : (promotedReason e which r).state = r.state := by cases which <;> rfl
  rw [same, resting] at charging
  exact nomatch charging

theorem takePromotion_ok (ok : SeqOk r) (which : Promoted) : SeqOk (takePromotion e which r) := by
  have band : (promotedReason e which r).band ≤ 6 := ((Agrees.of_ok ok).promotedReason which).band_le
  unfold takePromotion
  split
  case h_1 | h_2 | h_3 => exact promotionExpiry_ok (entry_ok band)
  case h_4 => exact afterReasons_ok ((Agrees.of_ok (promotionExpiry_ok ok)).promotedReason which) _
  case h_5 state =>
    have clamped : SeqOk (clampTimers e r) := by
      obtain ⟨free, k, full, rest, demand, band, adv, term, advs, terms, -⟩ := ok
      refine ⟨free, k, full, rest, demand, band, adv, term, advs, terms, ?_⟩
      simp [clampTimers, state]
    exact promotedReason_ok clamped (by show r.state.charging = false; rw [state]; rfl) which
  all_goals
    rename_i state
    exact promotedReason_ok ok (by rw [state]; rfl) which

/-! ### What leaves IDLE or ABSENT (R63, R75) -/

/-- A record that holds no charge and no timer: IDLE or ABSENT. -/
abbrev Dormant (r : SeqRecord) : Prop := r.state = .idle ∨ r.state = .absent

theorem Dormant.resting (h : Dormant r) : r.state.charging = false := by
  rcases h with h | h <;> rw [h] <;> rfl

theorem Dormant.ne_paused (h : Dormant r) : r.state ≠ .paused := by
  rcases h with h | h <;> rw [h] <;> exact nofun

theorem Dormant.withReasons (h : Dormant r) (new : PauseReasons) : Dormant { r with reasons := new } := h

theorem afterReasons_dormant (h : Dormant r) (old : PauseReasons) : afterReasons e old r = r := by
  unfold afterReasons
  rw [if_neg (by simp [h.resting]), if_neg fun paused => h.ne_paused paused.1]

theorem setCeiling_dormant (h : Dormant r) (v : Int) : Dormant (setCeiling e v r) := by
  unfold setCeiling
  split
  · exact h
  · have off : ceilingMet e { r with ceiling := v } = false := by simp [ceilingMet, h.resting]
    dsimp only
    rw [off]
    exact h

theorem takePromotion_dormant (h : Dormant r) (which : Promoted) : Dormant (takePromotion e which r) := by
  have same (q : SeqRecord) : (promotedReason e which q).state = q.state := by cases which <;> rfl
  rcases h with h | h <;> simp only [takePromotion, h, Dormant, same] <;> simp

theorem expireIfDue_dormant (h : Dormant r) : expireIfDue e r = r := by
  rcases h with h | h <;> simp only [expireIfDue, h]

/-- Only under an ACTIVE input does a set wake a cell that is IDLE or ABSENT (R63). -/
theorem takeSet_dormant (h : Dormant r) (off : e.inputActive = false) (t : Option Int) (coupled : Bool) (dt : Int) :
    Dormant (takeSet e t coupled dt r).1 := by
  have shown : Dormant (presence e (bandStep e t coupled r)) := by
    unfold presence
    split
    · exact .inr rfl
    · rw [off]
      split
      · exact .inl rfl
      · exact h
  have settled : Dormant (settleState e t coupled r) := by
    unfold settleState
    dsimp only
    split
    · exact shown
    · rw [afterReasons_dormant shown]
      exact shown
  unfold takeSet
  dsimp only
  generalize settleState e t coupled r = r3 at settled ⊢
  have timed : timerStep e dt r3 = r3 := by
    rcases settled with settled | settled <;> simp only [timerStep, settled]
  have moved : (transition e r3).1 = r3 := by
    have under : ceilingMet e r3 = false := by simp [ceilingMet, settled.resting]
    rcases settled with settled | settled <;> simp [transition, under, settled]
  split
  · rw [timed, if_neg (fun h => h rfl)]
    show Dormant (demandStep e (transition e r3).1)
    rw [moved]
    exact settled
  · exact settled

end Seq

/-! ### One sequencer with the input signals that wait for it -/

/-- A sequencer's fields agree with its state, and it charges only under an ACTIVE input but for a withdrawal that
waits (R57, R75). -/
abbrev ChargeOk (active : Bool) (r : SeqRecord) (l : List InputSignal) : Prop :=
  SeqOk r ∧ ChargesUnderInput active r l

namespace ChargeOk
variable {active : Bool} {r new : SeqRecord} {l : List InputSignal}

/-- A new record that wakes no dormant cell unless the input is ACTIVE. -/
theorem update (h : ChargeOk active r l) (ok : SeqOk new)
    (dormant : active = false → Seq.Dormant r → Seq.Dormant new) : ChargeOk active new l := by
  obtain ⟨-, last, charges⟩ := h
  refine ⟨ok, last, ?_⟩
  cases active with
  | true => exact .inr (.inr (.inl rfl))
  | false =>
    rcases charges with idle | absent | on | waits
    · exact (dormant rfl (.inl idle)).elim .inl fun h => .inr (.inl h)
    · exact (dormant rfl (.inr absent)).elim .inl fun h => .inr (.inl h)
    · exact nomatch on
    · exact .inr (.inr (.inr waits))

/-- The last signal that waits is still the last one once an earlier one is taken. -/
theorem lastSignal_tail {x : InputSignal} {rest : List InputSignal} (last : LastSignal active (x :: rest)) :
    LastSignal active rest := by
  intro y hy
  refine last y ?_
  rw [List.getLast?_cons, Option.mem_def.1 hy]
  rfl

/-- A grant is taken: the input is ACTIVE still, or a withdrawal waits behind it (R137). -/
theorem takeGrant {rest : List InputSignal} (h : ChargeOk active r (.granted :: rest)) (ok : SeqOk new) :
    ChargeOk active new rest := by
  obtain ⟨-, last, -⟩ := h
  refine ⟨ok, lastSignal_tail last, ?_⟩
  cases active with
  | true => exact .inr (.inr (.inl rfl))
  | false =>
    cases hl : rest.getLast? with
    | none =>
      obtain rfl := List.getLast?_eq_none_iff.1 hl
      exact absurd (last .granted rfl) nofun
    | some x =>
      obtain rfl : x = .withdrawn := lastSignal_tail last x hl
      exact .inr (.inr (.inr (List.mem_of_getLast? hl)))

/-- A withdrawal is taken: the cell is IDLE, or stays ABSENT (R75). -/
theorem takeWithdrawal {rest : List InputSignal} (h : ChargeOk active r (.withdrawn :: rest)) (ok : SeqOk new)
    (dormant : Seq.Dormant new) : ChargeOk active new rest := by
  obtain ⟨-, last, -⟩ := h
  exact ⟨ok, lastSignal_tail last, dormant.elim .inl fun h => .inr (.inl h)⟩

/-- The input becomes ACTIVE, or ceases to be, and the signal of it waits (R137). -/
theorem signal (h : ChargeOk active r l) (now : Bool) :
    ChargeOk now r (l ++ [if now then .granted else .withdrawn]) := by
  obtain ⟨ok, -, -⟩ := h
  refine ⟨ok, fun x hx => ?_, ?_⟩
  · rw [List.getLast?_concat] at hx
    exact (Option.some.inj hx).symm
  · cases now with
    | true => exact .inr (.inr (.inl rfl))
    | false => exact .inr (.inr (.inr (by simp)))

end ChargeOk

/-! ### Both sequencers -/

/-- Both sequencers agree with themselves and with the input. -/
def Charging (s : State) : Prop := ∀ c, ChargeOk s.inputActive (s.seq.get c) (s.handed.seqSignal.get c)

theorem charging_iff (s : State) : Charging s
    ↔ Both s.seq SeqOk ∧ ChargesUnderInput s.inputActive s.seq.near s.handed.seqSignal.near
      ∧ ChargesUnderInput s.inputActive s.seq.far s.handed.seqSignal.far := by
  refine ⟨fun h => ⟨⟨(h .near).1, (h .far).1⟩, (h .near).2, (h .far).2⟩, fun ⟨⟨n, f⟩, near, far⟩ c => ?_⟩
  cases c
  · exact ⟨n, near⟩
  · exact ⟨f, far⟩

theorem State.setHanded_charge (s : State) (h : Handed) (same : h.seqSignal = s.handed.seqSignal) :
    (s.setHanded h).charge = s.charge :=
  congrArg Prod.snd (s.setHanded_standing h same)

namespace Charging
variable {s t : State}

theorem of_charge (same : t.charge = s.charge) (h : Charging s) : Charging t := by
  have seq : t.seq = s.seq := congrArg Charge.seq same
  have active : t.inputActive = s.inputActive := congrArg Charge.active same
  have signals : t.handed.seqSignal = s.handed.seqSignal := congrArg Charge.signals same
  intro c
  rw [seq, active, signals]
  exact h c

/-- One sequencer's record changes, and what waits for it. -/
theorem change (h : Charging s) (c : Cell) {new : SeqRecord} {l : List InputSignal}
    (seq : t.seq = s.seq.set c new) (active : t.inputActive = s.inputActive)
    (signals : t.handed.seqSignal = s.handed.seqSignal.set c l) (ok : ChargeOk s.inputActive new l) : Charging t := by
  intro d
  rw [seq, active, signals, PerCell.get_set, PerCell.get_set]
  by_cases same : d = c
  · rw [if_pos same, if_pos same]
    exact ok
  · rw [if_neg same, if_neg same]
    exact h d

theorem updateSeq (h : Charging s) (c : Cell) {new : SeqRecord} (ok : SeqOk new)
    (dormant : s.inputActive = false → Seq.Dormant (s.seq.get c) → Seq.Dormant new) :
    Charging (s.updateSeq c new) := by
  rw [State.updateSeq_eq]
  exact h.change c rfl rfl (PerCell.set_get _ c).symm ((h c).update ok dormant)

/-- An event taken from its queue gives a record. -/
theorem takeEventSeq (h : Charging s) (c : Cell) {t : State} (same : t.charge = s.charge) {new : SeqRecord}
    (ok : SeqOk new) (dormant : Seq.Dormant (s.seq.get c) → Seq.Dormant new) : Charging (t.takeEventSeq c new) := by
  have ht : Charging (t.setSeenOf c ((t.seen.get c).holding (t.tables.profile.get c).active new.k)) := of_charge same h
  refine ht.updateSeq c ok fun _ was => dormant ?_
  rw [show s.seq = t.seq from congrArg Charge.seq same.symm]
  exact was

theorem handleSet (h : Charging s) (c : Cell) (m : MeasSet) : Charging (s.handleSet c m) := by
  have updated (u : State) (same : u.charge = s.charge) :
      Charging (u.updateSeq c (s.setOutcome c m).1) := by
    have hu : Charging u := of_charge same h
    have active : u.inputActive = s.inputActive := congrArg Charge.active same
    have seq : u.seq = s.seq := congrArg Charge.seq same
    refine hu.updateSeq c (Seq.takeSet_ok (h c).1 _ _ _) fun off dormant => ?_
    rw [seq] at dormant
    exact Seq.takeSet_dormant (e := s.seqEnvOn c m) dormant (active.symm.trans off) _ _ _
  have taken := updated (s.setSeenOf c ((s.seen.get c).onSet c m)) rfl
  unfold State.handleSet
  dsimp only
  split
  · exact of_charge rfl taken
  · exact taken

theorem expireNow (h : Charging s) (c : Cell) : Charging (s.expireNow c) :=
  h.updateSeq c (Seq.expireIfDue_ok (h c).1) fun _ dormant => by
    rw [Seq.expireIfDue_dormant dormant]
    exact dormant

theorem setCeiling (h : Charging s) (v : Int) (c : Cell) : Charging (s.setCeiling v c) :=
  h.updateSeq c (Seq.setCeiling_ok (h c).1 v) fun _ dormant => Seq.setCeiling_dormant dormant v

/-! ### The input (R136, R137) -/

theorem moveInput (h : Charging s) (new : InputState) : Charging (s.moveInput new) := by
  by_cases same : new = s.input.state
  · rw [same, State.moveInput_same]
    exact h
  · rw [State.moveInput_eq s new same]
    intro c
    by_cases on : new = .active
    · subst on
      have told := (h c).signal true
      simp only [State.inputActive, InputStage.enter, Handed.signal, if_true, PerCell.get_map]
      exact told
    · by_cases was : s.input.state = .active
      · have told := (h c).signal false
        simp only [State.inputActive, InputStage.enter, Handed.signal, on, was, if_true, if_false, PerCell.get_map,
          beq_eq_false_iff_ne.2 on]
        exact told
      · have stays := h c
        simp only [State.inputActive, beq_eq_false_iff_ne.2 was] at stays
        simp only [State.inputActive, InputStage.enter, on, was, if_false, beq_eq_false_iff_ne.2 on]
        exact stays

theorem setReasons (h : Charging s) (new : SuspendReasons) : Charging (s.setReasons new) := by
  have set : Charging (s.setInput { s.input with reasons := new }) := of_charge rfl h
  rw [State.setReasons_eq]
  dsimp only
  split
  · exact set.moveInput .suspended
  · split
    · exact set.moveInput .active
    · exact set

/-! ### The revert and the requests (R77, R78, R205) -/

theorem revertInput (h : Charging s) : Charging s.revertInput := by
  unfold State.revertInput
  split
  · exact of_charge (s := s.revertHost) rfl (h.setReasons _)
  · exact setReasons (s := s.revertSettings) (of_charge rfl h) _

theorem revertTransfer (h : Charging s) (cause : EndCause) : Charging (s.revertTransfer cause) := by
  refine of_charge ?_ h
  rw [State.revertTransfer_frame]
  rfl

theorem revertTransferAfterGrant (h : Charging s) (first : Bool) : Charging (s.revertTransferAfterGrant first) := by
  unfold State.revertTransferAfterGrant
  split
  · rename_i g hg
    have taken : s.handed.takeEvent .inputGranted = some g := by
      cases first
      · cases hg
      · exact hg
    exact revertTransfer (of_charge (congrArg Prod.snd (s.takeEvent_standing taken)) h) .input
  · exact h.revertTransfer .host

theorem revert (h : Charging s) : Charging s.revert := by
  have both (u : State) (hu : Charging u) : Charging (u.revertCeilings.revertInhibits.setFresh (s.fresh + 1)) := by
    have ceilings : Charging u.revertCeilings := (hu.setCeiling 1000 .near).setCeiling 1000 .far
    refine of_charge ?_ ceilings
    rw [State.revertInhibits_frame]
    rfl
  have input : Charging s.revertInputAndTransfer := by
    unfold State.revertInputAndTransfer
    split
    · exact h.revertInput.revertTransferAfterGrant _
    · exact (h.revertTransfer .host).revertInput
  exact of_charge rfl (both _ input)

theorem forEach (h : Charging s) (cells : List Cell) {f : Cell → State → State}
    (one : ∀ c u, Charging u → Charging (f c u)) : Charging (s.forEach cells f) := by
  unfold State.forEach
  induction cells generalizing s with
  | nil => exact h
  | cons c cells ih => exact ih (one c s h)

theorem ceiling (h : Charging s) (target : Byte) (value : Word) : Charging (s.ceiling target value).state := by
  unfold State.ceiling
  split
  · exact h.forEach _ fun c u hu => hu.setCeiling _ c
  · exact h

/-- A request to restart is refused for a cell that is IDLE or ABSENT (R77). -/
theorem chargeRestart (h : Charging s) (target : Byte) : Charging (s.chargeRestart target).state := by
  unfold State.chargeRestart
  split
  · rename_i cells names
    split
    · exact h
    · rename_i barred
      show Charging (s.forEach cells State.restartCell)
      have awake (c : Cell) (hc : c ∈ cells) : ¬ Seq.Dormant (s.seq.get c) := fun dormant =>
        barred (List.any_eq_true.2 ⟨c, hc, (s.restartBarred_iff c).2 dormant⟩)
      rw [s.forEach_restartCell_eq names]
      intro c
      by_cases hc : c ∈ cells
      · refine (h c).update ?_ fun _ dormant => absurd dormant (awake c hc)
        dsimp only
        rw [State.seqRestarted_of_mem hc]
        exact Seq.entryReset_ok (Seq.SeqOk.band_le (h c).1)
      · dsimp only
        rw [State.seqRestarted_of_notMem hc]
        exact h c
  · exact h

theorem softReset (h : Charging s) : Charging s.softReset.state := by
  have reverted : Charging s.reopenQueue.revert := revert (of_charge rfl h)
  show Charging s.reopenQueue.revert.discardPending
  generalize s.reopenQueue.revert = u at reverted ⊢
  exact of_charge rfl reverted

theorem powerOn : Charging s.powerOn := by
  intro c
  have reset : s.powerOn.seq.get c = powerOnSeq s.factory.bootHold := by cases c <;> rfl
  have nothing : s.powerOn.handed.seqSignal.get c = [] := by cases c <;> rfl
  rw [reset, nothing]
  exact ⟨seqOk_resting rfl rfl (by simp [powerOnSeq]) rfl rfl rfl (by simp [powerOnSeq]) fun _ => ⟨rfl, rfl⟩,
    nofun, .inl rfl⟩

/-! ### The commands of the sequencers and of the input -/

theorem execSeqInputGranted_keeps (s : State) (c : Cell) : Keeping Charging s (execSeqInputGranted c s) := by
  unfold execSeqInputGranted
  dsimp only
  split
  · rename_i rest waits
    refine .next fun h => ?_
    have hc := h c
    rw [waits] at hc
    unfold State.takeEventSeq
    rw [State.updateSeq_eq]
    refine h.change c rfl rfl rfl (hc.takeGrant ?_)
    split
    · exact Seq.entryReset_ok (Seq.SeqOk.band_le hc.1)
    · exact hc.1
  · exact .stay
  · exact .stay

theorem execSeqInputWithdrawn_keeps (s : State) (c : Cell) : Keeping Charging s (execSeqInputWithdrawn c s) := by
  unfold execSeqInputWithdrawn
  dsimp only
  split
  · rename_i rest waits
    have took (h : Charging s) := h c
    rw [waits] at took
    split
    · rename_i absent
      exact .next fun h => h.change c (PerCell.set_get _ c).symm rfl rfl
        ((took h).takeWithdrawal (took h).1 (.inr absent))
    · refine .next fun h => ?_
      rw [State.updateSeq_eq]
      exact h.change c rfl rfl rfl
        ((took h).takeWithdrawal (Seq.toIdle_ok (Seq.SeqOk.band_le (took h).1)) (.inl rfl))
  · exact .stay
  · exact .stay

theorem execSeqInhibitEvent_keeps (s : State) (c : Cell) : Keeping Charging s (execSeqInhibitEvent c s) := by
  unfold execSeqInhibitEvent
  dsimp only
  split
  · refine .next fun h => h.takeEventSeq c ?_ ?_ fun dormant => ?_
    · exact s.setHanded_charge _ rfl
    · exact Seq.afterReasons_ok ((Seq.Agrees.of_ok (h c).1).withReasons _) _
    · rw [Seq.afterReasons_dormant (dormant.withReasons _)]
      exact dormant.withReasons _
  · exact .stay

theorem execSeqFaultReasonUpdate_keeps (s : State) (c : Cell) : Keeping Charging s (execSeqFaultReasonUpdate c s) := by
  unfold execSeqFaultReasonUpdate
  dsimp only
  split
  · refine .next fun h => h.takeEventSeq c ?_ ?_ fun dormant => ?_
    · exact s.setHanded_charge _ rfl
    · exact Seq.afterReasons_ok ((Seq.Agrees.of_ok (h c).1).withReasons _) _
    · rw [Seq.afterReasons_dormant (dormant.withReasons _)]
      exact dormant.withReasons _
  · exact .stay

theorem execSeqPromotion_keeps (s : State) (c : Cell) : Keeping Charging s (execSeqPromotion c s) := by
  unfold execSeqPromotion
  dsimp only
  split
  · refine .next fun h => h.takeEventSeq c ?_ ?_ fun dormant => ?_
    · exact s.setHanded_charge _ rfl
    · exact Seq.takePromotion_ok (h c).1 _
    · exact Seq.takePromotion_dormant dormant _
  · exact .stay

theorem execDieSuspendReasonChange_keeps (s : State) : Keeping Charging s (execDieSuspendReasonChange s) := by
  unfold execDieSuspendReasonChange
  dsimp only
  split
  · refine .next fun h => setReasons ?_ _
    exact of_charge (s.setHanded_charge _ rfl) h
  · exact .stay

theorem execAttachFilterExpiry_keeps (s : State) (k : Comparator) :
    Keeping Charging s (execAttachFilterExpiry k s) := by
  unfold execAttachFilterExpiry
  dsimp only
  split
  · have edge (h : Charging s) : Charging (s.setInput (s.input.recordEdge k)) := by
      cases k <;> exact of_charge rfl h
    exact .next fun h => (edge h).moveInput _
  · exact .stay

theorem execQualificationExpiry_keeps (s : State) : Keeping Charging s (execQualificationExpiry s) := by
  unfold execQualificationExpiry
  split
  · exact .next fun h => h.moveInput _
  · exact .stay

theorem execSupervisorExpiry_keeps (s : State) : Keeping Charging s (execSupervisorExpiry s) := by
  unfold execSupervisorExpiry
  dsimp only
  split
  · exact .next fun h => Charging.revert (Charging.of_charge rfl h)
  · exact .stay

end Charging

/-- Every command keeps the sequencers in agreement with themselves and with the input. -/
theorem exec_charging (s : State) (i : Instr) : Keeping Charging s (exec i s) := by
  have replied (a : Answer) (kind tag : Byte) (h : Charging a.state) : Charging (a.reply kind tag) :=
    Charging.of_charge rfl h
  by_cases h : stirsCharge i = false
  · exact (exec_leaves_charge s i h).keeping Charging.of_charge
  · cases i with
    | powerOnReset => exact .next fun _ => Charging.powerOn
    | sequencerSetHandling c =>
      dsimp only [exec, execSequencerSetHandling]
      split
      · rename_i m rest _
        exact .next fun h => Charging.handleSet (s := s.dropSeqSet c rest) (Charging.of_charge rfl h) c m
      · exact .stay
    | safetyTimerExpiry c =>
      dsimp only [exec, execSafetyTimerExpiry]
      split
      · rename_i m rest _
        split
        · exact .next fun h => Charging.handleSet (s := s.dropSeqSet c rest) (Charging.of_charge rfl h) c m
        · exact .next fun h => h.expireNow c
      · exact .next fun h => h.expireNow c
    | seqInputGranted c => exact Charging.execSeqInputGranted_keeps s c
    | seqInputWithdrawn c => exact Charging.execSeqInputWithdrawn_keeps s c
    | seqInhibitEvent c => exact Charging.execSeqInhibitEvent_keeps s c
    | seqFaultReasonUpdate c => exact Charging.execSeqFaultReasonUpdate_keeps s c
    | seqPromotion c => exact Charging.execSeqPromotion_keeps s c
    | dieSuspendReasonChange => exact Charging.execDieSuspendReasonChange_keeps s
    | attachFilterExpiry k => exact Charging.execAttachFilterExpiry_keeps s k
    | qualificationExpiry => exact Charging.execQualificationExpiry_keeps s
    | supervisorExpiry => exact Charging.execSupervisorExpiry_keeps s
    | inputSuspendSuspend | inputSuspendResume => exact .request replied fun h => h.setReasons _
    | ceiling tag target value => exact .request replied fun h => h.ceiling target value
    | chargeRestart tag target => exact .request replied fun h => h.chargeRestart target
    | softReset tag => exact .request replied Charging.softReset
    | _ => exact absurd rfl h

/-- Settles O58: every command keeps each cell charging only with no pause reason and under an ACTIVE input, and time
changes neither. -/
theorem cellsChargeOnlyUnderAnActiveInput : Obligations.CellsChargeOnlyUnderAnActiveInput := by
  unfold Obligations.CellsChargeOnlyUnderAnActiveInput
  intro s t hs ht
  rw [← charging_iff] at hs ⊢
  exact step_keeps (fun _ _ h => Charging.of_charge rfl h) exec_charging (fun _ h => Charging.of_charge rfl h) hs ht

end Sys2Proof.Machine
end

section
/-! PROOFS. The charge counters: a full mark, and the three steps on a set: the seed, the count and the empty mark
(R23 to R34). -/

namespace Sys2Proof.Machine

/-! ### A full mark (R34) -/

theorem learnedFits_iff (design : Int) (r : CounterRecord) : learnedFits design r = true
    ↔ (design * 800).tdiv 1000 ≤ r.a.fdiv 1000 ∧ r.a.fdiv 1000 ≤ (design * 1100).tdiv 1000 := by
  simp only [learnedFits, Bool.and_eq_true, decide_eq_true_eq]
  rfl

/-- Settles O13, by whether the counter was TRACKING. -/
theorem fullMarkLearnsAndFills : Obligations.FullMarkLearnsAndFills := by
  unfold Obligations.FullMarkLearnsAndFills
  intro s c n waits
  dsimp only
  simp only [← learnedFits_iff]
  show execFullMark c s = _
  unfold execFullMark
  rw [waits]
  dsimp only
  by_cases tracking : (s.counter.get c).learning = .tracking
  · rw [if_pos tracking, if_pos tracking, Bool.decide_eq_true]
    rfl
  · rw [if_neg tracking, if_neg tracking]
    rfl

/-! ### The set that a counter takes (R23, R103) -/

theorem seedDue_iff (s : State) (c : Cell) (m : MeasSet) (r : CounterRecord) :
    seedDue (s.counterEnv c m) r.seed = true ↔ SeedMet r m c := by
  unfold SeedMet
  cases r.seed with
  | none => simp [seedDue]
  | powerOn => simp [seedDue, State.counterEnv]
  | requested =>
    simp only [seedDue, Bool.and_eq_true, decide_eq_true_eq, and_assoc, reduceCtorEq, false_and, false_or, true_and]
    rfl

theorem emptyMark_iff (s : State) (c : Cell) (m : MeasSet) :
    emptyMark (s.counterEnv c m) = true ↔ EmptyMarkMet s m c := by
  simp only [emptyMark, EmptyMarkMet, Bool.and_eq_true, decide_eq_true_eq, and_assoc]
  rfl

theorem TransferRecord.count_eq (t : TransferRecord) (c : Cell) (whole : Int) : t.count c whole = { t with
    moved := t.moved + if t.active = true ∧ t.receiver = some c ∧ 0 < whole then whole else 0 } := by
  unfold TransferRecord.count
  simp only [Bool.and_eq_true, beq_iff_eq, decide_eq_true_eq, and_assoc]
  split
  · rfl
  · rw [Int.add_zero]

/-- The counter takes the oldest set that waits for it. -/
theorem counterSetSteps_took {s : State} {c : Cell} {m : MeasSet} {rest : List MeasSet}
    (waits : s.handed.counterSet.get c = m :: rest) :
    ∃ t, exec (.counterSetSteps c) s = .next t
      ∧ CounterTook s c rest ((s.counter.get c).takeSet (s.counterEnv c m)) t := by
  refine ⟨_, ?_, rfl⟩
  show execCounterSetSteps c s = _
  unfold execCounterSetSteps
  rw [waits]
  dsimp only
  rw [TransferRecord.count_eq]
  rfl

namespace CounterRecord
variable {e : CounterEnv} {r : CounterRecord}

theorem seedOrCount_of_seed (due : seedDue e r.seed = true) : r.seedOrCount e = r.takeSeed e := if_pos due

theorem seedOrCount_of_count (waits : ¬ seedDue e r.seed = true) :
    r.seedOrCount e = if e.currentOk then r.integrate e else r.gap := if_neg waits

theorem takeSet_of_mark (met : emptyMark e = true) :
    r.takeSet e = { r.seedOrCount e with q := 0, residue := 0, learning := .tracking, a := 0 } := if_pos met

theorem takeSet_of_noMark (met : ¬ emptyMark e = true) : r.takeSet e = r.seedOrCount e := if_neg met

end CounterRecord

/-- Settles O11: the set is integrated or is a gap, and no mark follows. -/
theorem counterIntegratesASet : Obligations.CounterIntegratesASet := by
  unfold Obligations.CounterIntegratesASet
  intro s c m rest waits unseeded unmarked
  obtain ⟨t, ran, took⟩ := counterSetSteps_took waits
  rw [← seedDue_iff s] at unseeded
  rw [← emptyMark_iff] at unmarked
  rw [CounterRecord.takeSet_of_noMark unmarked, CounterRecord.seedOrCount_of_count unseeded] at took
  refine ⟨t, _, ran, took, ?_⟩
  by_cases usable : m.currentOk c = true
  · rw [if_pos usable, if_pos (show (s.counterEnv c m).currentOk = true from usable)]
    refine ⟨rfl, rfl, rfl, rfl, rfl, rfl, fun idle => ?_, fun tracking => ?_⟩
    · simp [CounterRecord.integrate, idle]
    · simp only [CounterRecord.integrate, tracking, if_true, true_and]
      exact ⟨rfl, rfl⟩
  · rw [if_neg usable, if_neg (show ¬ (s.counterEnv c m).currentOk = true from usable)]
    exact ⟨rfl, rfl, rfl, rfl, rfl, rfl, rfl, rfl⟩

/-! ### The seed that a voltage gives (R29) -/

theorem rising_tail {a : Int} {l : List Int} (h : rising (a :: l) = true) : rising l = true := by
  cases l with
  | nil => rfl
  | cons b l =>
    simp only [rising, Bool.and_eq_true] at h
    exact h.2

/-- In a rising list the first number is below each later one. -/
theorem rising_head_lt {a : Int} {l : List Int} (h : rising (a :: l) = true) {i : Nat} (hi : i < l.length) :
    a < l.getD i 0 := by
  induction l generalizing a i with
  | nil => exact absurd hi (Nat.not_lt_zero i)
  | cons b l ih =>
    have later := rising_tail h
    simp only [rising, Bool.and_eq_true, decide_eq_true_eq] at h
    cases i with
    | zero => exact h.1
    | succ i => exact h.1.trans (ih later (Nat.lt_of_succ_lt_succ hi))

theorem rising_iff (l : List Int) :
    rising l = true ↔ ∀ i, i + 1 < l.length → l.getD i 0 < l.getD (i + 1) 0 := by
  induction l with
  | nil => exact ⟨fun _ i hi => absurd hi (Nat.not_lt_zero _), fun _ => rfl⟩
  | cons a l ih =>
    constructor
    · intro h i hi
      have hi := Nat.lt_of_succ_lt_succ hi
      cases i with
      | zero => exact rising_head_lt h hi
      | succ i => exact ih.1 (rising_tail h) i hi
    · intro h
      cases l with
      | nil => rfl
      | cons b l =>
        have later := ih.2 fun i hi => h (i + 1) (Nat.succ_lt_succ hi)
        have first : a < b := h 0 (by simp)
        simp only [rising, Bool.and_eq_true, decide_eq_true_eq]
        exact ⟨first, later⟩

/-- A voltage between two neighbours of a rising table. -/
theorem ocvBetween_eq {v : Int} {l : List Int} (up : rising l = true) {i : Nat} (hi : i + 1 < l.length)
    (above : l.getD i 0 ≤ v) (below : v < l.getD (i + 1) 0) (base : Int) : ocvBetween v base l
      = base + 100 * i + (100 * (v - l.getD i 0)).fdiv (l.getD (i + 1) 0 - l.getD i 0) := by
  induction i generalizing l base with
  | zero =>
    match l, hi with
    | a :: b :: l, _ =>
      have hb : v < b := below
      simp only [ocvBetween, if_pos hb, divFloor]
      simp
  | succ i ih =>
    match l, hi with
    | a :: b :: l, hi =>
      have hi := Nat.lt_of_succ_lt_succ hi
      have later := rising_tail up
      have hb : ¬ v < b := by
        have hv : (b :: l).getD i 0 ≤ v := above
        cases i with
        | zero => exact not_lt.2 hv
        | succ i =>
          have := rising_head_lt later (i := i) (Nat.lt_of_succ_lt (Nat.lt_of_succ_lt_succ hi))
          exact not_lt.2 (this.le.trans hv)
      rw [ocvBetween, if_neg hb, ih later hi above below (base + 100)]
      have step : base + 100 + 100 * (i : Int) = base + 100 * ((i + 1 : Nat) : Int) := by push_cast; omega
      rw [step]
      rfl

/-- The seed of a voltage against a rising table of 11 entries. -/
theorem ocvState_spec {table : List Int} (len : table.length = 11) (up : rising table = true) (v : Int) :
    (v ≤ table.getD 0 0 → ocvState table v = 0) ∧ (table.getD 10 0 ≤ v → ocvState table v = 1000)
      ∧ ∀ i, i < 10 → table.getD i 0 ≤ v → v < table.getD (i + 1) 0 → ocvState table v
        = 100 * i + (100 * (v - table.getD i 0)).fdiv (table.getD (i + 1) 0 - table.getD i 0) := by
  have steps := (rising_iff table).1 up
  have order : ∀ j k, j < k → k < 11 → table.getD j 0 < table.getD k 0 := by
    intro j k hjk hk
    induction k with
    | zero => omega
    | succ k ih =>
      have step := steps k (by omega)
      by_cases same : j = k
      · exact same ▸ step
      · exact (ih (by omega) (by omega)).trans step
  refine ⟨fun low => if_pos low, fun high => ?_, fun i hi above below => ?_⟩
  · have low : ¬ v ≤ Words.at table 0 := not_le.2 ((order 0 10 (by omega) (by omega)).trans_le high)
    exact (if_neg low).trans (if_pos high)
  · by_cases low : v ≤ table.getD 0 0
    · cases i with
      | zero =>
        have zero : v - table.getD 0 0 = 0 := by omega
        rw [zero, Int.mul_zero, Int.zero_fdiv]
        exact if_pos low
      | succ i => exact absurd (order 0 (i + 1) (by omega) (by omega)) (not_lt.2 (above.trans low))
    · have high : ¬ table.getD 10 0 ≤ v := by
        by_cases last : i + 1 = 10
        · exact not_le.2 (last ▸ below)
        · exact not_le.2 (below.trans (order (i + 1) 10 (by omega) (by omega)))
      have between : ocvState table v = ocvBetween v 0 table := (if_neg low).trans (if_neg high)
      rw [between, ocvBetween_eq up (by omega) above below, Int.zero_add]

/-- Settles O12: a seed step against the table in force or the default one, and the empty mark after it. -/
theorem seedsAndEmptyMarksSetTheCharge : Obligations.SeedsAndEmptyMarksSetTheCharge := by
  unfold Obligations.SeedsAndEmptyMarksSetTheCharge
  refine ⟨fun s c m rest waits seeded len => ?_, fun s c m rest waits marked => ?_⟩
  · obtain ⟨t, ran, took⟩ := counterSetSteps_took waits
    have seeds := CounterRecord.seedOrCount_of_seed ((seedDue_iff s c m _).2 seeded)
    have own : (∀ i, i < 10 → s.tables.ocv.getD i 0 < s.tables.ocv.getD (i + 1) 0) ↔ rising s.tables.ocv = true := by
      rw [rising_iff, len]
      exact forall_congr' fun i => by rw [show i + 1 < 11 ↔ i < 10 by omega]
    have table_spec : (if rising s.tables.ocv then s.tables.ocv else defaultOcv).length = 11
        ∧ rising (if rising s.tables.ocv then s.tables.ocv else defaultOcv) = true := by
      split
      · exact ⟨len, ‹_›⟩
      · exact ⟨rfl, rfl⟩
    have noted : ((s.counter.get c).takeSet (s.counterEnv c m)).cap = (s.counter.get c).cap
        ∧ ((s.counter.get c).takeSet (s.counterEnv c m)).seed = .none
        ∧ ((s.counter.get c).takeSet (s.counterEnv c m)).lastWhole = 0
        ∧ ((s.counter.get c).takeSet (s.counterEnv c m)).note
          = some ⟨m.vc c, ocvState (if rising s.tables.ocv then s.tables.ocv else defaultOcv) (m.vc c),
            !rising s.tables.ocv⟩ := by
      by_cases met : emptyMark (s.counterEnv c m) = true
      · rw [CounterRecord.takeSet_of_mark met, seeds]
        exact ⟨rfl, rfl, rfl, rfl⟩
      · rw [CounterRecord.takeSet_of_noMark met, seeds]
        exact ⟨rfl, rfl, rfl, rfl⟩
    obtain ⟨cap, seed, whole, note⟩ := noted
    refine ⟨t, _, _, ran, took, cap, seed, whole, fun unmarked => ?_, _, fun h => if_pos (own.1 h),
      fun h => if_neg (mt own.2 h), ⟨_, note, ?_⟩, ocvState_spec table_spec.1 table_spec.2 (m.vc c)⟩
    · rw [CounterRecord.takeSet_of_noMark (mt (emptyMark_iff s c m).1 unmarked), seeds]
      exact ⟨rfl, rfl, rfl, rfl⟩
    · rw [own]
      simp
  · obtain ⟨t, ran, took⟩ := counterSetSteps_took waits
    rw [CounterRecord.takeSet_of_mark ((emptyMark_iff s c m).2 marked)] at took
    have kept : ((s.counter.get c).seedOrCount (s.counterEnv c m)).cap = (s.counter.get c).cap := by
      unfold CounterRecord.seedOrCount
      split
      · rfl
      · split <;> rfl
    refine ⟨t, _, ran, took, kept, rfl, rfl, rfl, rfl, fun unseeded => ?_⟩
    have usable : (s.counterEnv c m).currentOk = true := marked.2.2.1
    rw [CounterRecord.seedOrCount_of_count (mt (seedDue_iff s c m _).1 unseeded), if_pos usable]
    exact ⟨rfl, rfl, rfl⟩

end Sys2Proof.Machine
end

section
/-! PROOFS. CEILING and GAUGE-SEED (R31, R78): what each does to one cell, and to every cell of a target. -/

namespace Sys2Proof.Machine

/-- The record after a ceiling is given: a change takes the ceiling test at once (R71, R78). -/
theorem Seq.setCeiling_eq (e : SeqEnv) (v : Int) (r : SeqRecord) : Seq.setCeiling e v r
    = if r.ceiling ≠ v ∧ r.state.charging = true ∧ v < 1000 ∧ v ≤ e.soc then
        { r with
          ceiling := v, state := .full, full := .ceiling, k := 0, adv := 0, term := 0
          pre := 0, fast := 0, demand := 0 }
      else { r with ceiling := v } := by
  unfold Seq.setCeiling
  by_cases same : r.ceiling = v
  · rw [if_pos same, if_neg fun h => h.1 same]
    exact same ▸ rfl
  · rw [if_neg same]
    simp only [Seq.ceilingMet, Bool.and_eq_true, decide_eq_true_eq, and_assoc, ne_eq, same, not_false_eq_true, true_and]
    rfl

/-- A seed that is pending stays as it is (R31). -/
theorem SeedPending.request_of_pending {p : SeedPending} (h : p ≠ .none) : p.request = p := by
  cases p with
  | none => exact absurd rfl h
  | powerOn => rfl
  | requested => rfl

namespace State
variable (s : State)

/-- The record that a ceiling gives a cell. -/
def ceilinged (v : Int) (c : Cell) : SeqRecord := Seq.setCeiling (s.seqEnv c) v (s.seq.get c)

/-- A ceiling touches the cell's record and the notice queue alone. -/
theorem setCeiling_eq (v : Int) (c : Cell) : s.setCeiling v c = { s with
    seq := s.seq.set c (s.ceilinged v c)
    link := s.noticed c (s.ceilinged v c) s.link } :=
  s.updateSeq_took c (s.ceilinged v c)

/-- The records after a ceiling is given to some cells. -/
def seqCeilinged (v : Int) (cells : List Cell) : PerCell SeqRecord :=
  let one (c : Cell) : SeqRecord := if c ∈ cells then s.ceilinged v c else s.seq.get c
  ⟨one .near, one .far⟩

/-- The counters' records after a seed is requested in some cells. -/
def counterSeeded (cells : List Cell) : PerCell CounterRecord :=
  let one (c : Cell) : CounterRecord :=
    if c ∈ cells then { s.counter.get c with seed := (s.counter.get c).seed.request } else s.counter.get c
  ⟨one .near, one .far⟩

theorem seqCeilinged_get (v : Int) (cells : List Cell) (c : Cell) :
    (s.seqCeilinged v cells).get c = if c ∈ cells then s.ceilinged v c else s.seq.get c := by
  cases c <;> rfl

theorem counterSeeded_get (cells : List Cell) (c : Cell) : (s.counterSeeded cells).get c
    = if c ∈ cells then { s.counter.get c with seed := (s.counter.get c).seed.request } else s.counter.get c := by
  cases c <;> rfl

/-- A ceiling for a target is given to each cell as if it were alone; the near cell's notice comes first. -/
theorem forEach_setCeiling_eq (v : Int) {target : Byte} {cells : List Cell} (h : targetOf target = some cells) :
    s.forEach cells (fun c u => u.setCeiling v c) = { s with
      seq := s.seqCeilinged v cells
      link := s.noticed .far (s.seqCeilinged v cells).far
        (s.noticed .near (s.seqCeilinged v cells).near s.link) } := by
  have mem := mem_targetOf h
  obtain ⟨rfl, hu⟩ | ⟨rfl, hu⟩ | ⟨rfl, hu⟩ := s.forEach_cases (fun c u => u.setCeiling v c) target cells h
  · have hn : Cell.near ∈ cells := (mem .near).2 (by decide)
    have hf : Cell.far ∉ cells := fun hc => absurd ((mem .far).1 hc) (by decide)
    rw [hu]
    simp only [setCeiling_eq, seqCeilinged, hn, hf, if_true, if_false, noticed_same]
    rfl
  · have hn : Cell.near ∉ cells := fun hc => absurd ((mem .near).1 hc) (by decide)
    have hf : Cell.far ∈ cells := (mem .far).2 (by decide)
    rw [hu]
    simp only [setCeiling_eq, seqCeilinged, hn, hf, if_true, if_false, noticed_same]
    rfl
  · have hn : Cell.near ∈ cells := (mem .near).2 (by decide)
    have hf : Cell.far ∈ cells := (mem .far).2 (by decide)
    rw [hu]
    simp only [setCeiling_eq, seqCeilinged, hn, hf, if_true]
    rfl

/-- A seed is requested in each cell of a target. -/
theorem forEach_requestSeed_eq {target : Byte} {cells : List Cell} (h : targetOf target = some cells) :
    s.forEach cells requestSeed = { s with counter := s.counterSeeded cells } := by
  have mem := mem_targetOf h
  obtain ⟨rfl, hu⟩ | ⟨rfl, hu⟩ | ⟨rfl, hu⟩ := s.forEach_cases requestSeed target cells h
  · have hn : Cell.near ∈ cells := (mem .near).2 (by decide)
    have hf : Cell.far ∉ cells := fun hc => absurd ((mem .far).1 hc) (by decide)
    rw [hu]
    simp only [requestSeed, counterSeeded, hn, hf, if_true, if_false]
    rfl
  · have hn : Cell.near ∉ cells := fun hc => absurd ((mem .near).1 hc) (by decide)
    have hf : Cell.far ∈ cells := (mem .far).2 (by decide)
    rw [hu]
    simp only [requestSeed, counterSeeded, hn, hf, if_true, if_false]
    rfl
  · have hn : Cell.near ∈ cells := (mem .near).2 (by decide)
    have hf : Cell.far ∈ cells := (mem .far).2 (by decide)
    rw [hu]
    simp only [requestSeed, counterSeeded, hn, hf, if_true]
    rfl

theorem ceiling_badTarget {target : Byte} (h : targetOf target = none) (value : Word) :
    ceiling target value s = ⟨s, .badArg, s.ceilingBody⟩ := by
  rw [ceiling, h]
  rfl

theorem ceiling_taken {target : Byte} {cells : List Cell} (h : targetOf target = some cells) (value : Word) :
    ceiling target value s = ⟨s.forEach cells fun c u => u.setCeiling (ceilingOf value) c,
      if ceilingOf value = value.toNat then .ok else .clamped,
      (s.forEach cells fun c u => u.setCeiling (ceilingOf value) c).ceilingBody⟩ := by
  rw [ceiling, h]

theorem gaugeSeed_badTarget {target : Byte} (h : targetOf target = none) :
    gaugeSeed target s = ⟨s, .badArg, s.seedBody⟩ := by
  rw [gaugeSeed, h]
  rfl

theorem gaugeSeed_taken {target : Byte} {cells : List Cell} (h : targetOf target = some cells) :
    gaugeSeed target s = ⟨s.forEach cells requestSeed, .ok, (s.forEach cells requestSeed).seedBody⟩ := by
  rw [gaugeSeed, h]
  rfl

end State

/-- Settles O35: the target is judged by its value, and each of its cells is dealt with as if it were alone. -/
theorem ceilingAndSeedRequestsActOnTheTarget : Obligations.CeilingAndSeedRequestsActOnTheTarget := by
  unfold Obligations.CeilingAndSeedRequestsActOnTheTarget
  constructor
  · intro s tag target value hrun inTarget v
    have ran : exec (.ceiling tag target value) s = .next ((State.ceiling target value s).reply 0x12 tag) :=
      s.request_running .ceiling tag (State.ceiling target value) hrun
    rw [ran]
    refine ⟨fun hbad => ?_, fun hgood => ?_⟩
    · rw [s.ceiling_badTarget (targetOf_eq_none hbad)]
    · obtain ⟨cells, hcells⟩ := exists_targetOf_eq_some hgood
      refine ⟨_, by rw [s.ceiling_taken hcells]; rfl, ?_⟩
      rw [s.forEach_setCeiling_eq (ceilingOf value) hcells]
      refine ⟨rfl, rfl, fun c => ⟨fun hout => ?_, fun hin => ?_⟩⟩
      · show (s.seqCeilinged (ceilingOf value) cells).get c = s.seq.get c
        rw [s.seqCeilinged_get, if_neg fun hc => hout ((mem_targetOf hcells c).1 hc)]
      · show (s.seqCeilinged (ceilingOf value) cells).get c = _
        rw [s.seqCeilinged_get, if_pos ((mem_targetOf hcells c).2 hin)]
        exact Seq.setCeiling_eq (s.seqEnv c) v (s.seq.get c)
  · intro s tag target hrun inTarget
    have ran : exec (.gaugeSeed tag target) s = .next ((State.gaugeSeed target s).reply 0x16 tag) :=
      s.request_running .gaugeSeed tag (State.gaugeSeed target) hrun
    rw [ran]
    refine ⟨fun hbad => ?_, fun hgood => ?_⟩
    · rw [s.gaugeSeed_badTarget (targetOf_eq_none hbad)]
    · obtain ⟨cells, hcells⟩ := exists_targetOf_eq_some hgood
      refine ⟨_, by rw [s.gaugeSeed_taken hcells], ?_⟩
      rw [s.forEach_requestSeed_eq hcells]
      refine ⟨rfl, fun c => ?_⟩
      show (s.counterSeeded cells).get c = _
      rw [s.counterSeeded_get]
      by_cases hin : inTarget c
      · rw [if_pos ((mem_targetOf hcells c).2 hin)]
        by_cases unasked : (s.counter.get c).seed = .none
        · rw [if_pos ⟨hin, unasked⟩, unasked]
          rfl
        · rw [if_neg fun h => unasked h.2, SeedPending.request_of_pending unasked]
      · rw [if_neg fun hc => hin ((mem_targetOf hcells c).1 hc), if_neg fun h => hin h.1]

end Sys2Proof.Machine
end

section
/-! PROOFS. A set in a sequencer, step by step (R59 to R74): what steps 1 to 3 make of the record, in which cases steps
4 and 5 are taken, and when the safety timer expires. -/

namespace Sys2Proof.Machine

namespace Seq
variable {e : SeqEnv} {r : SeqRecord} {t : Option Int} {coupled : Bool}

/-! ### Step 1: the band (R60 to R62) -/

theorem plainBand_spec (bands : Words) (temp : Int) : PlainBand bands temp (plainBand bands temp) := by
  unfold plainBand PlainBand
  rw [show [1, 2, 3, 4, 5] = List.range' 1 5 from rfl]
  cases h : (List.range' 1 5).find? fun i => decide (temp < Bands.tHi bands i) with
  | none =>
    have above : ∀ i, 1 ≤ i → i < 6 → Bands.tHi bands i ≤ temp := fun i hi hi' => by
      have := List.find?_eq_none.1 h i (List.mem_range'_1.2 ⟨hi, hi'⟩)
      simpa using this
    exact ⟨by decide, by decide, fun h => absurd h (by decide), above⟩
  | some b =>
    obtain ⟨below, n, hn, rfl, earlier⟩ := List.find?_eq_some_iff_getElem.1 h
    rw [List.length_range'] at hn
    simp only [List.getElem_range', Nat.one_mul, decide_eq_true_eq, Bool.not_eq_true', decide_eq_false_iff_not,
      not_lt] at below earlier
    refine ⟨?_, ?_, fun _ => ?_, fun i hi hi' => ?_⟩
    · simp
    · simp only [Option.getD_some, List.getElem_range', Nat.one_mul]; omega
    · simpa using below
    · simp only [Option.getD_some, List.getElem_range', Nat.one_mul] at hi'
      have := earlier (i - 1) (by omega)
      rwa [Nat.add_sub_cancel' hi] at this

theorem inWidened_iff (bands : Words) (b : Nat) (temp : Int) :
    inWidened bands b temp = true ↔ Widened bands temp b := by
  simp only [inWidened, Bool.and_eq_true, Bool.or_eq_true, beq_iff_eq, decide_eq_true_eq]

theorem bandBars_iff (bands : Words) (b : Nat) : bandBars bands b = true ↔ b = 0 ∨ Bands.pct bands b = 0 := by
  simp only [bandBars, Bool.or_eq_true, beq_iff_eq]

theorem newBand_spec (bands : Words) (old : Nat) (temp : Int) :
    if old ≠ 0 ∧ Widened bands temp old then newBand bands old (some temp) = old
    else PlainBand bands temp (newBand bands old (some temp)) := by
  unfold newBand
  dsimp only
  by_cases none : old = 0
  · rw [if_neg fun h => h.1 none, if_pos none]
    exact plainBand_spec bands temp
  · rw [if_neg none]
    by_cases wide : Widened bands temp old
    · rw [if_pos ⟨none, wide⟩, if_pos ((inWidened_iff bands old temp).2 wide)]
    · rw [if_neg fun h => wide h.2, if_neg (mt (inWidened_iff bands old temp).1 wide)]
      exact plainBand_spec bands temp

/-! ### Step 2: presence (R63) -/

/-- VC of the set is usable and at 1500 mV or above. -/
abbrev Present (e : SeqEnv) : Prop := e.vcOk = true ∧ 1500 ≤ e.vc

theorem presence_gone (gone : ¬ Present e) : presence e r = toAbsent r := by
  unfold presence
  refine if_pos ?_
  by_cases ok : e.vcOk = true
  · have low : e.vc < 1500 := not_le.1 fun h => gone ⟨ok, h⟩
    simp [low]
  · simp [ok]

theorem presence_returned (present : Present e) (absent : r.state = .absent) (high : 2000 ≤ e.vc) :
    presence e r = if e.inputActive then entryReset e (toIdle r) else toIdle r := by
  unfold presence
  obtain ⟨ok, above⟩ := present
  rw [if_neg (by simp [ok, above]), if_pos ⟨absent, high⟩]

theorem presence_stays (present : Present e) (stays : ¬ (r.state = .absent ∧ 2000 ≤ e.vc)) : presence e r = r := by
  unfold presence
  obtain ⟨ok, above⟩ := present
  rw [if_neg (by simp [ok, above]), if_neg stays]

/-- An entry evaluation with its timers at 0 overwrites what going to IDLE clears. -/
theorem entryReset_toIdle (e : SeqEnv) (r : SeqRecord) : entryReset e (toIdle r) = entryReset e r := rfl

/-! ### Entries and D (R66, R74) -/

/-- D is what the state of a record gives. -/
abbrev Demanded (e : SeqEnv) (r : SeqRecord) : Prop := demandStep e r = r

theorem place_demanded (e : SeqEnv) (r : SeqRecord) : Demanded e (place e r) := by
  unfold place
  split <;> rfl

theorem entry_demanded (e : SeqEnv) (r : SeqRecord) : Demanded e (entry e r) := by
  unfold entry
  split
  · rfl
  · split
    · rfl
    · split
      · rfl
      · exact place_demanded e r

theorem place_state (e : SeqEnv) (r : SeqRecord) : (place e r).state = .fast ∨ (place e r).state = .taper := by
  unfold place
  split
  · exact .inl rfl
  · exact .inr rfl

/-- With VC usable and no pause reason an entry evaluation gives a charging state. -/
theorem entry_charging (ok : e.vcOk = true) (free : r.reasons.any = false) : (entry e r).state.charging = true := by
  unfold entry
  rw [if_neg (by simp [ok]), if_neg (by simp [free])]
  split
  · rfl
  · obtain h | h := place_state e r <;> rw [h] <;> rfl

theorem entry_ne_absent (ok : e.vcOk = true) : (entry e r).state ≠ .absent := by
  by_cases free : r.reasons.any = false
  · intro h
    have charging := entry_charging ok free
    rw [h] at charging
    exact nomatch charging
  · unfold entry
    rw [if_neg (by simp [ok]), if_pos (by simpa using free)]
    exact nofun

/-- Above VPRE an entry evaluation with VC usable and no pause reason is the voltage placement. -/
theorem entry_eq_place (ok : e.vcOk = true) (free : r.reasons.any = false) (above : Profile.vpre e.prof ≤ e.vc) :
    entry e r = place e r := by
  unfold entry
  rw [if_neg (by simp [ok]), if_neg (by simp [free]), if_neg (not_lt.2 above)]

/-! ### Steps 2 and 3 that change the state end the set (R59) -/

theorem takeSet_of_changed (changed : (settleState e t coupled r).state ≠ r.state) (dt : Int) :
    takeSet e t coupled dt r = (demandStep e (settleState e t coupled r), false) := by
  unfold takeSet
  dsimp only
  rw [if_neg]
  simpa [stateKept] using changed

theorem takeSet_of_settled (same : (settleState e t coupled r).state = r.state) (dt : Int) :
    takeSet e t coupled dt r =
      if (timerStep e dt (settleState e t coupled r)).state ≠ (settleState e t coupled r).state then
        (demandStep e (timerStep e dt (settleState e t coupled r)), false)
      else
        (demandStep e (transition e (timerStep e dt (settleState e t coupled r))).1,
          (transition e (timerStep e dt (settleState e t coupled r))).2) := by
  unfold takeSet
  dsimp only
  rw [if_pos]
  simpa [stateKept] using same

theorem settleState_of_present (present : Present e) (stays : ¬ (r.state = .absent ∧ 2000 ≤ e.vc)) :
    settleState e t coupled r = afterReasons e r.reasons (bandStep e t coupled r) := by
  unfold settleState
  dsimp only
  rw [presence_stays (r := bandStep e t coupled r) present stays, if_neg fun h => h rfl]

/-- Steps 4 and 5 do nothing to a state that has neither a timer nor a transition. -/
theorem takeSet_of_idle (same : settleState e t coupled r = bandStep e t coupled r)
    (idle : r.state = .absent ∨ r.state = .idle ∨ r.state = .paused ∨ r.state = .expired) (dt : Int) :
    takeSet e t coupled dt r = ({ bandStep e t coupled r with demand := 0 }, false) := by
  have state : (bandStep e t coupled r).state = r.state := rfl
  have timed : timerStep e dt (bandStep e t coupled r) = bandStep e t coupled r := by
    unfold timerStep
    rcases idle with h | h | h | h <;> rw [state, h]
  have moved : transition e (bandStep e t coupled r) = (bandStep e t coupled r, false) := by
    unfold transition ceilingMet
    rcases idle with h | h | h | h <;> rw [state, h] <;> rfl
  have demand : demandOf e (bandStep e t coupled r) = 0 := by
    unfold demandOf
    rcases idle with h | h | h | h <;> rw [state, h]
  rw [takeSet_of_settled (same ▸ rfl), same, timed, if_neg fun h => h rfl, moved]
  unfold demandStep
  rw [demand]

/-- A set with the cell gone (R63). -/
theorem settleState_gone (gone : ¬ Present e) : settleState e t coupled r = toAbsent (bandStep e t coupled r) := by
  have left : presence e (bandStep e t coupled r) = toAbsent (bandStep e t coupled r) := presence_gone gone
  unfold settleState
  dsimp only
  rw [left]
  split
  · rfl
  · exact afterReasons_dormant (.inr rfl) _

theorem takeSet_gone (gone : ¬ Present e) (dt : Int) :
    takeSet e t coupled dt r = (toAbsent (bandStep e t coupled r), false) := by
  have settled := settleState_gone (t := t) (coupled := coupled) (r := r) gone
  by_cases absent : r.state = .absent
  · have same : (settleState e t coupled r).state = r.state := by rw [settled, absent]; rfl
    rw [takeSet_of_settled same, settled]
    rfl
  · have changed : (settleState e t coupled r).state ≠ r.state := by
      rw [settled]
      exact fun h => absent h.symm
    rw [takeSet_of_changed changed, settled]
    rfl

/-- A set at which the cell returns (R63, R66). -/
theorem takeSet_returned (present : Present e) (absent : r.state = .absent) (high : 2000 ≤ e.vc) (dt : Int) :
    takeSet e t coupled dt r = (if e.inputActive then entryReset e (bandStep e t coupled r)
      else toIdle (bandStep e t coupled r), false) := by
  have back := presence_returned (r := bandStep e t coupled r) present absent high
  rw [entryReset_toIdle] at back
  have left : (presence e (bandStep e t coupled r)).state ≠ .absent := by
    rw [back]
    split
    · exact entry_ne_absent present.1
    · exact nofun
  have settled : settleState e t coupled r = presence e (bandStep e t coupled r) := by
    unfold settleState
    dsimp only
    exact if_pos fun h => left (h.trans absent)
  have changed : (settleState e t coupled r).state ≠ r.state := by
    rw [settled, absent]
    exact left
  rw [takeSet_of_changed changed, settled, back]
  split
  · exact Prod.ext (entry_demanded e _) rfl
  · rfl

/-- A set that leaves the cell gone, with VC between the two thresholds (R63). -/
theorem takeSet_still_absent (present : Present e) (absent : r.state = .absent) (low : e.vc < 2000) (dt : Int) :
    takeSet e t coupled dt r = ({ bandStep e t coupled r with demand := 0 }, false) := by
  have settled : settleState e t coupled r = bandStep e t coupled r := by
    rw [settleState_of_present present fun h => absurd h.2 (not_le.2 low)]
    exact afterReasons_dormant (r := bandStep e t coupled r) (.inr absent) _
  exact takeSet_of_idle settled (.inl absent) dt

/-! ### Step 3: the pause reasons (R64, R65) -/

theorem afterReasons_barred (charging : r.state.charging = true) (barred : r.reasons.any = true)
    (old : PauseReasons) : afterReasons e old r = toPaused r :=
  if_pos (Bool.and_eq_true_iff.2 ⟨charging, barred⟩)

theorem afterReasons_resumed (paused : r.state = .paused) {old : PauseReasons} (was : old.any = true)
    (free : r.reasons.any = false) : afterReasons e old r = entry e r := by
  unfold afterReasons
  rw [if_neg (by simp [free]), if_pos ⟨paused, was, by simp [free]⟩]

theorem afterReasons_same {old : PauseReasons} (bars : r.state.charging = true → r.reasons.any = false)
    (resumes : r.state = .paused → old.any = true → r.reasons.any = true) : afterReasons e old r = r := by
  unfold afterReasons
  rw [if_neg, if_neg]
  · rintro ⟨paused, was, free⟩
    simp [resumes paused was] at free
  · intro h
    obtain ⟨charging, barred⟩ := Bool.and_eq_true_iff.1 h
    exact absurd barred (Bool.eq_false_iff.1 (bars charging))

theorem settleState_barred (present : Present e) (charging : r.state.charging = true)
    (barred : (bandStep e t coupled r).reasons.any = true) :
    settleState e t coupled r = toPaused (bandStep e t coupled r) := by
  have there : ¬ (r.state = .absent ∧ 2000 ≤ e.vc) := fun h => by
    rw [h.1] at charging
    exact nomatch charging
  rw [settleState_of_present present there]
  exact afterReasons_barred (r := bandStep e t coupled r) charging barred _

theorem takeSet_barred (present : Present e) (charging : r.state.charging = true)
    (barred : (bandStep e t coupled r).reasons.any = true) (dt : Int) :
    takeSet e t coupled dt r = (toPaused (bandStep e t coupled r), false) := by
  have settled := settleState_barred present charging barred
  have changed : (settleState e t coupled r).state ≠ r.state := by
    rw [settled]
    intro h
    rw [← h] at charging
    exact nomatch charging
  rw [takeSet_of_changed changed, settled]
  rfl

theorem takeSet_resumed (present : Present e) (paused : r.state = .paused) (was : r.reasons.any = true)
    (free : (bandStep e t coupled r).reasons.any = false) (dt : Int) :
    takeSet e t coupled dt r = (entry e (bandStep e t coupled r), false) := by
  have there : ¬ (r.state = .absent ∧ 2000 ≤ e.vc) := fun h => by
    rw [h.1] at paused
    exact nomatch paused
  have settled : settleState e t coupled r = entry e (bandStep e t coupled r) := by
    rw [settleState_of_present present there]
    exact afterReasons_resumed (r := bandStep e t coupled r) paused was free
  have changed : (settleState e t coupled r).state ≠ r.state := by
    rw [settled, paused]
    intro h
    have charging := entry_charging (r := bandStep e t coupled r) present.1 free
    rw [h] at charging
    exact nomatch charging
  rw [takeSet_of_changed changed, settled, entry_demanded]

/-- With the cell present, any other record passes steps 2 and 3 as step 1 left it. -/
theorem settleState_same (present : Present e) (there : r.state ≠ .absent)
    (bars : r.state.charging = true → (bandStep e t coupled r).reasons.any = false)
    (resumes : r.state = .paused → (bandStep e t coupled r).reasons.any = true) :
    settleState e t coupled r = bandStep e t coupled r := by
  rw [settleState_of_present present fun h => there h.1]
  exact afterReasons_same (r := bandStep e t coupled r) bars fun paused _ => resumes paused

/-! ### Step 4: the timer (R73) -/

/-- The timer of the state of a record stands at its limit. -/
def timerDue (e : SeqEnv) (r : SeqRecord) : Prop :=
  r.state = .precharge ∧ Profile.preLimitMs e.prof ≤ r.pre
    ∨ (r.state = .fast ∨ r.state = .taper) ∧ Profile.fastLimitMs e.prof ≤ r.fast

/-- The record with the timer of its state advanced by a set. -/
def advanced (e : SeqEnv) (dt : Int) (r : SeqRecord) : SeqRecord :=
  match r.state with
  | .precharge => { r with pre := r.pre + advance e r dt }
  | .fast | .taper => { r with fast := r.fast + advance e r dt }
  | .absent | .idle | .full | .paused | .expired => r

theorem advanced_state (e : SeqEnv) (dt : Int) (r : SeqRecord) : (advanced e dt r).state = r.state := by
  cases h : r.state <;> simp only [advanced, h]

theorem advanced_precharge (state : r.state = .precharge) (dt : Int) :
    advanced e dt r = { r with pre := r.pre + advance e r dt } := by
  unfold advanced
  rw [state]

theorem advanced_fast (state : r.state = .fast ∨ r.state = .taper) (dt : Int) :
    advanced e dt r = { r with fast := r.fast + advance e r dt } := by
  unfold advanced
  rcases state with h | h <;> rw [h]

theorem timerStep_inTime {dt : Int} (inTime : ¬ timerDue e (advanced e dt r)) :
    timerStep e dt r = advanced e dt r := by
  cases h : r.state with
  | precharge =>
    rw [advanced_precharge h] at inTime ⊢
    simp only [timerStep, expireIfDue, h]
    exact if_neg fun due => inTime (.inl ⟨h, due⟩)
  | fast =>
    rw [advanced_fast (.inl h)] at inTime ⊢
    simp only [timerStep, expireIfDue, h]
    exact if_neg fun due => inTime (.inr ⟨.inl h, due⟩)
  | taper =>
    rw [advanced_fast (.inr h)] at inTime ⊢
    simp only [timerStep, expireIfDue, h]
    exact if_neg fun due => inTime (.inr ⟨.inr h, due⟩)
  | absent | idle | full | paused | expired => simp only [timerStep, advanced, h]

theorem timerDue_advanced_iff (e : SeqEnv) (dt : Int) (r : SeqRecord) : timerDue e (advanced e dt r)
    ↔ r.state = .precharge ∧ Profile.preLimitMs e.prof ≤ r.pre + advance e r dt
      ∨ (r.state = .fast ∨ r.state = .taper) ∧ Profile.fastLimitMs e.prof ≤ r.fast + advance e r dt := by
  unfold timerDue
  rw [advanced_state]
  refine or_congr (and_congr_right fun state => ?_) (and_congr_right fun state => ?_)
  · rw [advanced_precharge state]
  · rw [advanced_fast state]

theorem timerStep_precharge_due {dt : Int} (state : r.state = .precharge)
    (due : Profile.preLimitMs e.prof ≤ r.pre + advance e r dt) :
    timerStep e dt r = toExpired { r with pre := Profile.preLimitMs e.prof } := by
  simp only [timerStep, expireIfDue, state]
  exact if_pos due

theorem timerStep_fast_due {dt : Int} (state : r.state = .fast ∨ r.state = .taper)
    (due : Profile.fastLimitMs e.prof ≤ r.fast + advance e r dt) :
    timerStep e dt r = toExpired { r with fast := Profile.fastLimitMs e.prof } := by
  rcases state with h | h <;>
  · simp only [timerStep, expireIfDue, h]
    exact if_pos due

theorem timerStep_due {dt : Int} (due : timerDue e (advanced e dt r)) : ∃ x, timerStep e dt r = toExpired x :=
  ((timerDue_advanced_iff e dt r).1 due).elim (fun ⟨state, due⟩ => ⟨_, timerStep_precharge_due state due⟩)
    fun ⟨state, due⟩ => ⟨_, timerStep_fast_due state due⟩

/-- A set takes a charging cell, present and with no pause reason, on to steps 4 and 5. -/
abbrev GoesOn (e : SeqEnv) (t : Option Int) (coupled : Bool) (r : SeqRecord) : Prop :=
  Present e ∧ r.state.charging = true ∧ (bandStep e t coupled r).reasons.any = false

theorem GoesOn.settled (on : GoesOn e t coupled r) : settleState e t coupled r = bandStep e t coupled r := by
  obtain ⟨present, charging, free⟩ := on
  refine settleState_same present (fun absent => ?_) (fun _ => free) fun paused => ?_
  · rw [absent] at charging
    exact nomatch charging
  · rw [paused] at charging
    exact nomatch charging

/-- Steps 2 and 3 leave the state of a charging cell only where the set takes it on. -/
theorem GoesOn.of_settled (charging : r.state.charging = true) (same : (settleState e t coupled r).state = r.state) :
    GoesOn e t coupled r := by
  rw [← same] at charging
  have present : Present e := by
    by_contra gone
    rw [settleState_gone gone] at charging
    exact nomatch charging
  refine ⟨present, same ▸ charging, Bool.eq_false_iff.2 fun barred => ?_⟩
  rw [settleState_barred present (same ▸ charging) barred] at charging
  exact nomatch charging

/-- A set on which the timer has time left. -/
theorem takeSet_inTime (on : GoesOn e t coupled r) {dt : Int}
    (inTime : ¬ timerDue e (advanced e dt (bandStep e t coupled r))) : takeSet e t coupled dt r
      = (demandStep e (transition e (advanced e dt (bandStep e t coupled r))).1,
        (transition e (advanced e dt (bandStep e t coupled r))).2) := by
  rw [takeSet_of_settled (on.settled ▸ rfl), on.settled, timerStep_inTime inTime,
    if_neg fun h => h (advanced_state e dt _)]

/-- A set on which the timer runs out. -/
theorem takeSet_expired (on : GoesOn e t coupled r) {dt : Int} {x : SeqRecord}
    (due : timerStep e dt (bandStep e t coupled r) = toExpired x) :
    takeSet e t coupled dt r = (toExpired x, false) ∧ expiresOn e t coupled dt r = true := by
  have changed : (toExpired x).state ≠ (bandStep e t coupled r).state := fun h => by
    have charging : (bandStep e t coupled r).state.charging = true := on.2.1
    rw [← h] at charging
    exact nomatch charging
  constructor
  · rw [takeSet_of_settled (on.settled ▸ rfl), on.settled, due, if_pos changed]
    rfl
  · simp only [expiresOn, stateKept, on.settled, due, Bool.and_eq_true, beq_iff_eq, bne_iff_ne]
    exact ⟨rfl, changed⟩

/-! ### Step 5 (R68 to R72) -/

/-- Step 5 of a charging state never expires it, and keeps the timers but in FULL. -/
theorem transition_timers (charging : r.state.charging = true) : (transition e r).1.state ≠ .expired
    ∧ ((transition e r).1.state ≠ .full → (transition e r).1.pre = r.pre ∧ (transition e r).1.fast = r.fast) := by
  unfold transition
  split
  · exact ⟨nofun, fun h => absurd rfl h⟩
  · cases state : r.state with
    | precharge =>
      dsimp only
      split
      · unfold place
        split <;> exact ⟨nofun, fun _ => ⟨rfl, rfl⟩⟩
      · exact ⟨by rw [state]; nofun, fun _ => ⟨rfl, rfl⟩⟩
    | fast =>
      dsimp only [fastStep]
      split
      · split
        · exact ⟨by rw [state]; nofun, fun _ => ⟨rfl, rfl⟩⟩
        · split <;> exact ⟨nofun, fun _ => ⟨rfl, rfl⟩⟩
      · exact ⟨by rw [state]; nofun, fun _ => ⟨rfl, rfl⟩⟩
    | taper =>
      dsimp only [taperStep]
      split
      · split
        · exact ⟨by rw [state]; nofun, fun _ => ⟨rfl, rfl⟩⟩
        · exact ⟨nofun, fun h => absurd rfl h⟩
      · exact ⟨by rw [state]; nofun, fun _ => ⟨rfl, rfl⟩⟩
    | absent | idle | full | paused | expired =>
      rw [state] at charging
      exact nomatch charging

/-! ### A cell that is there stays there (R63) -/

theorem afterReasons_ne_absent (ok : e.vcOk = true) (there : r.state ≠ .absent) (old : PauseReasons) :
    (afterReasons e old r).state ≠ .absent := by
  unfold afterReasons
  split
  · exact nofun
  · split
    · exact entry_ne_absent ok
    · exact there

theorem timerStep_ne_absent (there : r.state ≠ .absent) (dt : Int) : (timerStep e dt r).state ≠ .absent := by
  by_cases due : timerDue e (advanced e dt r)
  · obtain ⟨x, expired⟩ := timerStep_due due
    rw [expired]
    exact nofun
  · rw [timerStep_inTime due, advanced_state]
    exact there

theorem transition_ne_absent (ok : e.vcOk = true) (there : r.state ≠ .absent) :
    (transition e r).1.state ≠ .absent := by
  unfold transition
  split
  · exact nofun
  · split
    · dsimp only
      split
      · obtain h | h := place_state e r <;> rw [h] <;> exact nofun
      · exact there
    · dsimp only [fastStep]
      split
      · split
        · exact there
        · split <;> exact nofun
      · exact there
    · dsimp only [taperStep]
      split
      · split
        · exact there
        · exact nofun
      · exact there
    · dsimp only
      split
      · exact entry_ne_absent ok
      · exact there
    all_goals exact there

theorem takeSet_ne_absent (present : Present e) (there : r.state ≠ .absent) (dt : Int) :
    (takeSet e t coupled dt r).1.state ≠ .absent := by
  have settled : (settleState e t coupled r).state ≠ .absent := by
    rw [settleState_of_present present fun h => there h.1]
    exact afterReasons_ne_absent (r := bandStep e t coupled r) present.1 there _
  by_cases same : (settleState e t coupled r).state = r.state
  · rw [takeSet_of_settled same]
    have timed := timerStep_ne_absent (e := e) settled dt
    split
    · exact timed
    · exact transition_ne_absent present.1 timed
  · rw [takeSet_of_changed same]
    exact settled

end Seq

/-! ### A set in the part -/

theorem bandTemp_eq (s : State) (c : Cell) (m : MeasSet) : bandTemp m c s.folded = bandTemperature s c m := by
  unfold bandTemp bandTemperature State.folded
  cases m.tempOk c with
  | false => rfl
  | true => simp [and_assoc]

/-- What a sequencer holds of a set that it has taken. -/
theorem State.sawSet_seen (s : State) (c : Cell) (m : MeasSet) :
    (s.sawSet c m).seen.get c = ⟨s.prof c, s.bandsOf c, m.vc c, m.vcAge c⟩ := by
  rw [PerCell.get_set, if_pos rfl]

/-- Settles O14: the set's handling keeps what step 1 writes. -/
theorem setHandlingDeterminesTheBand : Obligations.SetHandlingDeterminesTheBand := by
  unfold Obligations.SetHandlingDeterminesTheBand
  intro s c m rest waits _
  obtain ⟨t, ran, -, took, -⟩ := sequencerSetHandling_took s c m rest waits
  obtain ⟨band, bandT, -, reasons, ceiling⟩ :=
    Seq.takeSet_keeps (s.seqEnvOn c m) (bandTemp m c s.folded) (s.coupledOn c m) m.dt (s.seq.get c)
  refine ⟨t, _, ran, took, bandT.trans (bandTemp_eq s c m), fun none => ?_, fun temp some => ?_, ?_, ?_, ?_, ceiling⟩
  · rw [bandT] at none
    rw [band]
    show Seq.newBand (s.bandsOf c) (s.seq.get c).band (bandTemp m c s.folded) = 0
    rw [show bandTemp m c s.folded = Option.none from none]
    rfl
  · rw [bandT] at some
    have set : (Seq.takeSet (s.seqEnvOn c m) (bandTemp m c s.folded) (s.coupledOn c m) m.dt (s.seq.get c)).1.band
        = Seq.newBand (s.bandsOf c) (s.seq.get c).band (Option.some temp) :=
      band.trans (congrArg (Seq.newBand (s.bandsOf c) (s.seq.get c).band) some)
    rw [set]
    exact Seq.newBand_spec (s.bandsOf c) (s.seq.get c).band temp
  · rw [reasons, band]
    exact Seq.bandBars_iff (s.bandsOf c) _
  · rw [reasons]
    rfl
  · rw [reasons]
    rfl

/-- Settles O15, by whether VC of the set is usable and where it lies. -/
theorem presenceIsTestedOnASet : Obligations.PresenceIsTestedOnASet := by
  unfold Obligations.PresenceIsTestedOnASet
  intro s c m rest waits
  obtain ⟨t, ran, became, -, -⟩ := sequencerSetHandling_took s c m rest waits
  refine ⟨t, ran, fun gone => ?_, fun there ok above => ?_, ?_, fun absent ok above low => ?_,
    fun absent ok high => ⟨fun off => ?_, fun on => ?_⟩⟩
  · have gone : ¬ Seq.Present (s.seqEnvOn c m) := fun ⟨ok, above⟩ =>
      gone.elim (fun h => Bool.false_ne_true (h.symm.trans ok)) fun h => absurd above (not_le.2 h)
    rw [became, State.setOutcome, Seq.takeSet_gone gone]
    exact ⟨rfl, rfl, rfl, rfl, rfl, rfl, rfl, rfl⟩
  · rw [became]
    exact Seq.takeSet_ne_absent (e := s.seqEnvOn c m) ⟨ok, above⟩ there m.dt
  · obtain ⟨-, -, coupled, -, -⟩ :=
      Seq.takeSet_keeps (s.seqEnvOn c m) (bandTemp m c s.folded) (s.coupledOn c m) m.dt (s.seq.get c)
    rw [became, State.setOutcome, coupled]
    show s.coupledOn c m = true ↔ _
    simp [State.coupledOn, State.folded, and_assoc]
  · rw [became, State.setOutcome, Seq.takeSet_still_absent ⟨ok, above⟩ absent low]
    exact absent
  · have inactive : (s.seqEnvOn c m).inputActive = false := beq_eq_false_iff_ne.2 off
    rw [became, State.setOutcome, Seq.takeSet_returned ⟨ok, le_trans (by decide) high⟩ absent high,
      if_neg (by simp [inactive])]
    exact ⟨rfl, rfl, rfl, rfl, rfl, rfl, rfl, rfl⟩
  · have active : (s.seqEnvOn c m).inputActive = true := beq_iff_eq.2 on
    rw [became, State.setOutcome, Seq.takeSet_returned ⟨ok, le_trans (by decide) high⟩ absent high, if_pos active,
      State.sawSet_seen]
    exact Seq.entry_outcome (s.seqEnvOn c m) (s.afterBand c m) (m.vcAge c) rfl 0 0

/-! ### The safety timer (R73) -/

theorem timeAdded_eq (e : SeqEnv) (r : SeqRecord) (dt : Nat) :
    timeAdded e.bands r.band dt = Seq.advance e r dt := by
  unfold timeAdded Seq.advance Seq.pct divTrunc
  rw [Int.tdiv_eq_ediv_of_nonneg (Int.natCast_nonneg dt)]

/-- SAFETY_TIMER_EXPIRY is the handling of a set that takes the timer to its limit (log 16). -/
theorem exec_safetyTimerExpiry_of_expires {s : State} {c : Cell} {m : MeasSet} {rest : List MeasSet}
    (waits : s.handed.seqSet.get c = m :: rest) (expires : s.setExpires c m = true) :
    exec (.safetyTimerExpiry c) s = exec (.sequencerSetHandling c) s := by
  show execSafetyTimerExpiry c s = execSequencerSetHandling c s
  unfold execSafetyTimerExpiry execSequencerSetHandling
  rw [waits]
  exact if_pos expires

/-- A set on which the timer of a charging state has time left: step 5 keeps the timers but in FULL. -/
theorem Seq.takeSet_inTime_timers {e : SeqEnv} {t : Option Int} {coupled : Bool} {r : SeqRecord}
    (on : GoesOn e t coupled r) {dt : Int} (inTime : ¬ timerDue e (advanced e dt (bandStep e t coupled r))) :
    (takeSet e t coupled dt r).1.state ≠ .expired
      ∧ ((takeSet e t coupled dt r).1.state ≠ .full →
        (takeSet e t coupled dt r).1.pre = (advanced e dt (bandStep e t coupled r)).pre
          ∧ (takeSet e t coupled dt r).1.fast = (advanced e dt (bandStep e t coupled r)).fast) := by
  rw [takeSet_inTime on inTime]
  refine transition_timers ?_
  rw [advanced_state]
  exact on.2.1

/-- Settles O16: the advanced timer of the state stands at its limit or below it. -/
theorem safetyTimerExpiresAtItsLimit : Obligations.SafetyTimerExpiresAtItsLimit := by
  unfold Obligations.SafetyTimerExpiresAtItsLimit
  intro s c m rest waits ok above free old add preLimit fastLimit
  obtain ⟨t, ran, became, -, -⟩ := sequencerSetHandling_took s c m rest waits
  have added : add = Seq.advance (s.seqEnvOn c m) (s.afterBand c m) m.dt :=
    timeAdded_eq (s.seqEnvOn c m) (s.afterBand c m) m.dt
  have present : Seq.Present (s.seqEnvOn c m) := ⟨ok, above⟩
  refine ⟨t, ran, fun state => ?_, fun state => ?_⟩
  · have on : Seq.GoesOn (s.seqEnvOn c m) (bandTemp m c s.folded) (s.coupledOn c m) (s.seq.get c) :=
      ⟨present, by rw [state]; rfl, free⟩
    have moved := Seq.advanced_precharge (e := s.seqEnvOn c m) (r := s.afterBand c m) state m.dt
    rw [← added] at moved
    split
    · rename_i due
      rw [added] at due
      obtain ⟨new, expires⟩ := Seq.takeSet_expired on (Seq.timerStep_precharge_due state due)
      refine ⟨(exec_safetyTimerExpiry_of_expires waits expires).trans ran, ?_⟩
      rw [became, State.setOutcome, new]
      exact ⟨rfl, rfl, rfl, rfl, rfl, rfl, rfl⟩
    · rename_i inTime
      have inTime : ¬ Seq.timerDue (s.seqEnvOn c m) (Seq.advanced (s.seqEnvOn c m) m.dt (s.afterBand c m)) := by
        rw [moved]
        rintro (⟨-, due⟩ | ⟨other, -⟩)
        · exact inTime due
        · rcases other with h | h <;> exact nomatch state.symm.trans h
      have timers := Seq.takeSet_inTime_timers on inTime
      rw [moved] at timers
      rw [became]
      exact timers
  · have on : Seq.GoesOn (s.seqEnvOn c m) (bandTemp m c s.folded) (s.coupledOn c m) (s.seq.get c) :=
      ⟨present, by rcases state with h | h <;> rw [h] <;> rfl, free⟩
    have moved := Seq.advanced_fast (e := s.seqEnvOn c m) (r := s.afterBand c m) state m.dt
    rw [← added] at moved
    split
    · rename_i due
      rw [added] at due
      obtain ⟨new, expires⟩ := Seq.takeSet_expired on (Seq.timerStep_fast_due state due)
      refine ⟨(exec_safetyTimerExpiry_of_expires waits expires).trans ran, ?_⟩
      rw [became, State.setOutcome, new]
      exact ⟨rfl, rfl, rfl, rfl, rfl, rfl, rfl⟩
    · rename_i inTime
      have inTime : ¬ Seq.timerDue (s.seqEnvOn c m) (Seq.advanced (s.seqEnvOn c m) m.dt (s.afterBand c m)) := by
        rw [moved]
        rintro (⟨other, -⟩ | ⟨-, due⟩)
        · rcases state with h | h <;> exact nomatch h.symm.trans other
        · exact inTime due
      have timers := Seq.takeSet_inTime_timers on inTime
      rw [moved] at timers
      rw [became]
      exact ⟨timers.1, fun full => (timers.2 full).symm⟩

end Sys2Proof.Machine
end

section
/-! PROOFS. The events between sets: a grant and a withdrawal of the input (R75), and a promotion (R51, R76). -/

namespace Sys2Proof.Machine

namespace Seq
variable {e : SeqEnv} {r : SeqRecord}

/-! ### A grant and a withdrawal of the input (R75) -/

/-- The states that an entry evaluation gives. -/
theorem entry_state (e : SeqEnv) (r : SeqRecord) : (entry e r).state = .absent ∨ (entry e r).state = .paused
    ∨ (entry e r).state = .precharge ∨ (entry e r).state = .fast ∨ (entry e r).state = .taper := by
  unfold entry
  split
  · exact .inl rfl
  · split
    · exact .inr (.inl rfl)
    · split
      · exact .inr (.inr (.inl rfl))
      · exact .inr (.inr (.inr (place_state e r)))

end Seq

/-- The record that a withdrawal of the input gives. -/
def SeqRecord.withdrawn (r : SeqRecord) : SeqRecord := if r.state = .absent then r else Seq.toIdle r

theorem exec_seqInputGranted {s : State} {c : Cell} {rest : List InputSignal}
    (waits : s.handed.seqSignal.get c = .granted :: rest) :
    exec (.seqInputGranted c) s = .next ((s.dropSeqSignal c rest).takeEventSeq c
      (if (s.seq.get c).state = .idle then Seq.entryReset (s.seqEnvHeld c) (s.seq.get c) else s.seq.get c)) := by
  show execSeqInputGranted c s = _
  unfold execSeqInputGranted
  rw [waits]

theorem exec_seqInputWithdrawn {s : State} {c : Cell} {rest : List InputSignal}
    (waits : s.handed.seqSignal.get c = .withdrawn :: rest) :
    exec (.seqInputWithdrawn c) s = .next ((s.dropSeqSignal c rest).updateSeq c (s.seq.get c).withdrawn) := by
  show execSeqInputWithdrawn c s = _
  unfold execSeqInputWithdrawn SeqRecord.withdrawn
  rw [waits]
  dsimp only
  split
  · have same : (s.dropSeqSignal c rest).updateSeq c (s.seq.get c) = s.dropSeqSignal c rest := by
      have kept : (s.dropSeqSignal c rest).noticed c (s.seq.get c) s.link = s.link :=
        (s.dropSeqSignal c rest).noticed_same c s.link
      rw [State.updateSeq_took (s.dropSeqSignal c rest) c (s.seq.get c)]
      show { s.dropSeqSignal c rest with
        seq := s.seq.set c (s.seq.get c), link := (s.dropSeqSignal c rest).noticed c (s.seq.get c) s.link } = _
      rw [PerCell.set_get, kept]
      rfl
    rw [same]
  · rfl

/-- Settles O18: both signals give the sequencer's record, a grant by an entry evaluation from IDLE. -/
theorem inputSignalsStartAndStopACharge : Obligations.InputSignalsStartAndStopACharge := by
  unfold Obligations.InputSignalsStartAndStopACharge
  refine ⟨fun s c rest waits => ?_, fun s c rest waits => ?_⟩
  · refine ⟨_, _, exec_seqInputGranted waits, (s.dropSeqSignal c rest).takeEventSeq_took c _, fun awake => ?_,
      fun idle => ?_⟩
    · rw [if_neg awake]
    · rw [if_pos idle]
      exact ⟨Seq.entry_outcome (s.seqEnvHeld c) (s.seq.get c) (s.seen.get c).age rfl 0 0, Seq.entry_state _ _⟩
  · refine ⟨_, _, exec_seqInputWithdrawn waits, (s.dropSeqSignal c rest).updateSeq_took c _, ?_, ?_, ?_,
      fun absent => if_pos absent, fun there => ?_⟩
    · unfold SeqRecord.withdrawn
      split <;> rfl
    · unfold SeqRecord.withdrawn
      split <;> rfl
    · unfold SeqRecord.withdrawn
      split <;> rfl
    · rw [SeqRecord.withdrawn, if_neg there]
      exact ⟨rfl, rfl, rfl, rfl, rfl, rfl, rfl, rfl⟩

/-! ### A promotion (R76) -/

namespace Seq
variable {e : SeqEnv} {r : SeqRecord} {which : Promoted}

/-- A promotion brings the BAND reason up to date and touches no other field before the state is judged (R62). -/
theorem promotedReason_eq (e : SeqEnv) (which : Promoted) (r : SeqRecord) :
    promotedReason e which r = { r with reasons := (promotedReason e which r).reasons } := by
  cases which <;> rfl

/-- Everything that a promotion does after that keeps the reasons, the band and the ceiling. -/
theorem takePromotion_keeps (e : SeqEnv) (which : Promoted) (r : SeqRecord) :
    Keeps (promotedReason e which r) (takePromotion e which r) := by
  have told (x : SeqRecord) (h : Keeps r x) : Keeps (promotedReason e which r) (promotedReason e which x) := by
    obtain ⟨band, bandT, coupled, reasons, ceiling⟩ := h
    cases which with
    | profile w => exact ⟨band, bandT, coupled, reasons, ceiling⟩
    | bands w =>
      refine ⟨band, bandT, coupled, ?_, ceiling⟩
      simp only [promotedReason, updateBandReason, band, reasons]
  unfold takePromotion
  split
  case h_1 | h_2 | h_3 => exact (entry_keeps e _).trans (promotionExpiry_keeps e _)
  case h_4 => exact (told _ (promotionExpiry_keeps e r)).trans (afterReasons_keeps e _ _)
  case h_5 => exact told (clampTimers e r) ⟨rfl, rfl, rfl, rfl, rfl⟩
  all_goals exact Keeps.refl _

theorem takePromotion_eq_of_charging (charging : r.state.charging = true) :
    takePromotion e which r = promotionExpiry e (entry e (promotedReason e which r)) := by
  cases state : r.state with
  | precharge | fast | taper => simp only [takePromotion, state]
  | absent | idle | full | paused | expired =>
    rw [state] at charging
    exact nomatch charging

theorem takePromotion_eq_of_paused (paused : r.state = .paused) : takePromotion e which r
    = afterReasons e r.reasons (promotedReason e which (promotionExpiry e r)) := by
  simp only [takePromotion, paused]

theorem takePromotion_eq_of_expired (expired : r.state = .expired) :
    takePromotion e which r = promotedReason e which (clampTimers e r) := by
  simp only [takePromotion, expired]

theorem takePromotion_eq_of_resting (resting : r.state = .idle ∨ r.state = .absent ∨ r.state = .full) :
    takePromotion e which r = promotedReason e which r := by
  rcases resting with h | h | h <;> simp only [takePromotion, h]

theorem overLimit_iff (e : SeqEnv) (r : SeqRecord) : overLimit e r = true
    ↔ Profile.preLimitMs e.prof ≤ r.pre ∨ Profile.fastLimitMs e.prof ≤ r.fast := by
  simp only [overLimit, Bool.or_eq_true, decide_eq_true_eq]

theorem promotionExpiry_over (atLimit : Profile.preLimitMs e.prof ≤ r.pre ∨ Profile.fastLimitMs e.prof ≤ r.fast) :
    promotionExpiry e r = toExpired (clampTimers e r) := if_pos ((overLimit_iff e r).2 atLimit)

theorem promotionExpiry_below (pre : r.pre < Profile.preLimitMs e.prof) (fast : r.fast < Profile.fastLimitMs e.prof) :
    promotionExpiry e r = r :=
  if_neg fun atLimit => ((overLimit_iff e r).1 atLimit).elim (not_le.2 pre) (not_le.2 fast)

/-- With VC usable an entry evaluation keeps the timers. -/
theorem entry_timers (ok : e.vcOk = true) : (entry e r).pre = r.pre ∧ (entry e r).fast = r.fast := by
  unfold entry place
  rw [if_neg (by simp [ok])]
  split
  · exact ⟨rfl, rfl⟩
  · split
    · exact ⟨rfl, rfl⟩
    · split <;> exact ⟨rfl, rfl⟩

theorem promotedReason_state (e : SeqEnv) (which : Promoted) (r : SeqRecord) :
    (promotedReason e which r).state = r.state := by
  rw [promotedReason_eq]

theorem promotedReason_timers (e : SeqEnv) (which : Promoted) (r : SeqRecord) :
    (promotedReason e which r).pre = r.pre ∧ (promotedReason e which r).fast = r.fast := by
  rw [promotedReason_eq]
  exact ⟨rfl, rfl⟩

/-- EXPIRED with both timers held to their limits. -/
abbrev ExpiredAt (e : SeqEnv) (old r : SeqRecord) : Prop :=
  r.state = .expired ∧ r.pre = min old.pre (Profile.preLimitMs e.prof)
    ∧ r.fast = min old.fast (Profile.fastLimitMs e.prof) ∧ r.k = 0 ∧ r.adv = 0 ∧ r.term = 0 ∧ r.demand = 0

/-- A timer at or above a new limit expires the cell. -/
theorem takePromotion_over (counts : r.state = .paused ∨ r.state.charging = true ∧ e.vcOk = true)
    (atLimit : Profile.preLimitMs e.prof ≤ r.pre ∨ Profile.fastLimitMs e.prof ≤ r.fast) :
    ExpiredAt e r (takePromotion e which r) := by
  rcases counts with paused | ⟨charging, ok⟩
  · have settled : afterReasons e r.reasons (promotedReason e which (toExpired (clampTimers e r)))
        = promotedReason e which (toExpired (clampTimers e r)) := by
      have state := promotedReason_state e which (toExpired (clampTimers e r))
      refine afterReasons_same (fun charging => ?_) fun paused => ?_
      · rw [state] at charging
        exact nomatch charging
      · rw [state] at paused
        exact nomatch paused
    rw [takePromotion_eq_of_paused paused, promotionExpiry_over atLimit, settled, promotedReason_eq]
    exact ⟨rfl, rfl, rfl, rfl, rfl, rfl, rfl⟩
  · obtain ⟨pre, fast⟩ := entry_timers (r := promotedReason e which r) ok
    obtain ⟨toldPre, toldFast⟩ := promotedReason_timers e which r
    have pre := pre.trans toldPre
    have fast := fast.trans toldFast
    rw [takePromotion_eq_of_charging charging, promotionExpiry_over (by rw [pre, fast]; exact atLimit)]
    refine ⟨rfl, ?_, ?_, rfl, rfl, rfl, rfl⟩
    · rw [← pre]
      rfl
    · rw [← fast]
      rfl

/-- A charging cell whose VC is unusable goes to ABSENT. -/
theorem takePromotion_unusable (charging : r.state.charging = true) (bad : ¬ e.vcOk = true)
    (pre : 0 < Profile.preLimitMs e.prof) (fast : 0 < Profile.fastLimitMs e.prof) :
    takePromotion e which r = toAbsent (promotedReason e which r) := by
  have gone : entry e (promotedReason e which r) = toAbsent (promotedReason e which r) := if_pos (by simpa using bad)
  rw [takePromotion_eq_of_charging charging, gone]
  exact promotionExpiry_below pre fast

/-- Below its limits a charging cell re-enters. -/
theorem takePromotion_reenters (charging : r.state.charging = true) (ok : e.vcOk = true)
    (pre : r.pre < Profile.preLimitMs e.prof) (fast : r.fast < Profile.fastLimitMs e.prof) :
    takePromotion e which r = entry e (promotedReason e which r) := by
  obtain ⟨entryPre, entryFast⟩ := entry_timers (r := promotedReason e which r) ok
  obtain ⟨toldPre, toldFast⟩ := promotedReason_timers e which r
  rw [takePromotion_eq_of_charging charging]
  refine promotionExpiry_below ?_ ?_
  · rw [entryPre, toldPre]
    exact pre
  · rw [entryFast, toldFast]
    exact fast

/-- Below its limits PAUSED is judged by its reasons alone. -/
theorem takePromotion_paused (paused : r.state = .paused) (pre : r.pre < Profile.preLimitMs e.prof)
    (fast : r.fast < Profile.fastLimitMs e.prof) :
    takePromotion e which r = afterReasons e r.reasons (promotedReason e which r) := by
  rw [takePromotion_eq_of_paused paused, promotionExpiry_below pre fast]

end Seq

/-- The event gives the sequencer a record, and the promoted copy to handle sets against. -/
theorem seqPromotion_took {s : State} {c : Cell} {which : Promoted} {rest : List Promoted}
    (waits : s.handed.seqPromotion.get c = which :: rest) :
    ∃ t, exec (.seqPromotion c) s = .next t
      ∧ SeqTook ((s.sawPromotion c which).holdsStage c (Seq.takePromotion (s.seqEnvHeld c) which (s.seq.get c))) c
        (Seq.takePromotion (s.seqEnvHeld c) which (s.seq.get c))
        { s.handed with seqPromotion := s.handed.seqPromotion.set c rest } t := by
  have ran : exec (.seqPromotion c) s = .next
      (((s.setHanded { s.handed with seqPromotion := s.handed.seqPromotion.set c rest }).setSeenOf c
        ((s.seen.get c).onPromotion which)).takeEventSeq c
          (Seq.takePromotion (s.seqEnvHeld c) which (s.seq.get c))) := by
    show execSeqPromotion c s = _
    unfold execSeqPromotion
    rw [waits]
  refine ⟨_, ran, ?_⟩
  have took := State.takeEventSeq_took ((s.setHanded { s.handed with
    seqPromotion := s.handed.seqPromotion.set c rest }).setSeenOf c ((s.seen.get c).onPromotion which)) c
      (Seq.takePromotion (s.seqEnvHeld c) which (s.seq.get c))
  cases which <;> exact took

/-- Settles O20, by the state in which the promotion finds the cell. -/
theorem promotionReachesTheSequencer : Obligations.PromotionReachesTheSequencer := by
  unfold Obligations.PromotionReachesTheSequencer
  intro s c which rest waits u
  obtain ⟨t, ran, took⟩ := seqPromotion_took waits
  refine ⟨t, _, ran, took, ?_⟩
  intro old v preLimit fastLimit bars told
  obtain ⟨band, -, -, reasons, ceiling⟩ := Seq.takePromotion_keeps (s.seqEnvHeld c) which old
  have told_eq : told = Seq.promotedReason (s.seqEnvHeld c) which old := by
    rw [Seq.promotedReason_eq, ← reasons]
  have usable_iff : (s.seqEnvHeld c).vcOk = true ↔ v.age ≤ 2 := decide_eq_true_iff
  refine ⟨band.trans ?_, ceiling.trans ?_, fun w h => ?_, fun w h => ?_, fun resting => ?_, fun expired => ?_,
    fun counts atLimit => ?_, fun charging unusable pre fast => ?_,
    fun pre fast => ⟨fun charging ok => ?_, fun paused => ?_⟩⟩
  · rw [Seq.promotedReason_eq]
  · rw [Seq.promotedReason_eq]
  · subst h
    exact reasons
  · subst h
    rw [reasons]
    show ({ old.reasons with band := Seq.bandBars (s.seqEnvHeld c).bands old.band } : PauseReasons) = _
    rw [show Seq.bandBars (s.seqEnvHeld c).bands old.band = decide bars from
      Bool.eq_iff_iff.2 ((Seq.bandBars_iff _ _).trans decide_eq_true_iff.symm)]
  · rw [told_eq]
    exact Seq.takePromotion_eq_of_resting resting
  · rw [told_eq]
    refine (Seq.takePromotion_eq_of_expired expired).trans ?_
    cases which <;> rfl
  · refine Seq.takePromotion_over (counts.imp_right fun ⟨charging, ok⟩ => ⟨charging, usable_iff.2 ok⟩) atLimit
  · have bad : ¬ (s.seqEnvHeld c).vcOk = true := fun ok => absurd (usable_iff.1 ok) (not_le.2 unusable)
    rw [Seq.takePromotion_unusable charging bad pre fast, Seq.promotedReason_eq]
    exact ⟨⟨rfl, rfl, rfl, rfl, rfl, rfl, rfl, rfl⟩, rfl⟩
  · rw [told_eq, Seq.takePromotion_reenters charging (usable_iff.2 ok) pre fast]
    have outcome := Seq.entry_outcome (s.seqEnvHeld c) (Seq.promotedReason (s.seqEnvHeld c) which old) v.age rfl
      old.pre old.fast
    rw [Seq.promotedReason_eq] at outcome ⊢
    exact outcome
  · have outcome := Seq.afterReasons_outcome (s.seqEnvHeld c) v.age rfl old.reasons told
    have resting : ¬ (told.state.charging = true ∧ told.reasons.any = true) := fun h => by
      have charging : old.state.charging = true := h.1
      rw [paused] at charging
      exact nomatch charging
    have became : Seq.takePromotion (s.seqEnvHeld c) which old
        = Seq.afterReasons (s.seqEnvHeld c) old.reasons told := by
      rw [told_eq]
      exact Seq.takePromotion_paused paused pre fast
    dsimp only at outcome
    rw [if_neg resting, ← became] at outcome
    by_cases resumes : old.reasons.any = true ∧ told.reasons.any = false
    · rw [if_pos ⟨paused, resumes⟩] at outcome
      rw [if_pos resumes]
      exact outcome
    · rw [if_neg fun h => resumes h.2] at outcome
      rw [if_neg resumes]
      exact outcome

end Sys2Proof.Machine
end

section
/-! PROOFS. Steps 3 and 5 of a set (R59, R64 to R72): the stop at the ceiling, the stages, the taper law and its
termination, the recharge test, and when a full mark is sent and the last grant noted. -/

namespace Sys2Proof.Machine

namespace Seq
variable {e : SeqEnv} {r : SeqRecord} {t : Option Int} {coupled : Bool}

/-! ### Step 5, case by case -/

theorem ceilingMet_iff (e : SeqEnv) (r : SeqRecord) :
    ceilingMet e r = true ↔ r.state.charging = true ∧ r.ceiling < 1000 ∧ r.ceiling ≤ e.soc := by
  simp only [ceilingMet, Bool.and_eq_true, decide_eq_true_eq, and_assoc]

theorem transition_stopped (met : ceilingMet e r = true) : transition e r = (toFull .ceiling r, false) := if_pos met

theorem transition_precharge (free : ¬ ceilingMet e r = true) (state : r.state = .precharge) :
    transition e r = (if Profile.vpre e.prof + 100 ≤ e.vc then place e r else r, false) := by
  unfold transition
  rw [if_neg free, state]

theorem transition_fast (free : ¬ ceilingMet e r = true) (state : r.state = .fast) :
    transition e r = (fastStep e r, false) := by
  unfold transition
  rw [if_neg free, state]

theorem transition_taper (free : ¬ ceilingMet e r = true) (state : r.state = .taper) :
    transition e r = taperStep e r := by
  unfold transition
  rw [if_neg free, state]

theorem transition_full (state : r.state = .full) :
    transition e r = (if rechargeMet e r then entryReset e r else r, false) := by
  unfold transition
  rw [if_neg fun met => absurd ((ceilingMet_iff e r).1 met).1 (by rw [state]; exact nofun), state]

theorem taperStep_marks_iff (e : SeqEnv) (r : SeqRecord) :
    (taperStep e r).2 = true ↔ taperDone e r = true ∧ 2 ≤ r.term := by
  unfold taperStep
  by_cases done : taperDone e r = true
  · rw [if_pos done]
    by_cases more : r.term + 1 < 3
    · rw [if_pos more]
      exact ⟨nofun, fun h => absurd h.2 (by omega)⟩
    · rw [if_neg more]
      exact ⟨fun _ => ⟨done, by omega⟩, fun _ => rfl⟩
  · rw [if_neg done]
    exact ⟨nofun, fun h => absurd h.1 done⟩

/-- Step 5 sends a full mark in the taper's termination alone (R70). -/
theorem transition_marks_iff (e : SeqEnv) (r : SeqRecord) : (transition e r).2 = true
    ↔ r.state = .taper ∧ ¬ ceilingMet e r = true ∧ taperDone e r = true ∧ 2 ≤ r.term := by
  by_cases met : ceilingMet e r = true
  · rw [transition_stopped met]
    exact ⟨nofun, fun h => absurd met h.2.1⟩
  · by_cases taper : r.state = .taper
    · rw [transition_taper met taper, taperStep_marks_iff]
      exact ⟨fun h => ⟨taper, met, h⟩, fun h => h.2.2⟩
    · refine ⟨fun marks => ?_, fun h => absurd h.1 taper⟩
      unfold transition at marks
      rw [if_neg met] at marks
      split at marks
      case h_3 state => exact absurd state taper
      all_goals exact nomatch marks

/-! ### A charging set that goes on with its timer in time -/

/-- The timer of the state has time left after a set (R73). -/
abbrev InTime (e : SeqEnv) (dt : Int) (r : SeqRecord) : Prop := ¬ timerDue e (advanced e dt r)

/-- A set that a cell in TAPER goes on with, in time and below its ceiling: the one that the taper law is applied
on (R70). -/
abbrev Tapers (e : SeqEnv) (t : Option Int) (coupled : Bool) (dt : Int) (r : SeqRecord) : Prop :=
  r.state = .taper ∧ GoesOn e t coupled r ∧ InTime e dt (bandStep e t coupled r)
    ∧ ¬ ceilingMet e (bandStep e t coupled r) = true

/-- The timers do not matter for the ceiling test. -/
theorem ceilingMet_advanced (e : SeqEnv) (dt : Int) (r : SeqRecord) :
    ceilingMet e (advanced e dt r) = ceilingMet e r := by
  cases state : r.state <;> simp only [advanced, state, ceilingMet]

theorem taperDone_advanced (e : SeqEnv) (dt : Int) (r : SeqRecord) : taperDone e (advanced e dt r) = taperDone e r := by
  cases state : r.state <;> simp only [advanced, state] <;> rfl

theorem term_advanced (e : SeqEnv) (dt : Int) (r : SeqRecord) : (advanced e dt r).term = r.term := by
  cases state : r.state <;> simp only [advanced, state]

/-- A set sends a full mark where the taper law ends the charge (R70). -/
theorem takeSet_marks_iff (e : SeqEnv) (t : Option Int) (coupled : Bool) (dt : Int) (r : SeqRecord) :
    (takeSet e t coupled dt r).2 = true
      ↔ Tapers e t coupled dt r ∧ taperDone e (bandStep e t coupled r) = true ∧ 2 ≤ r.term := by
  by_cases on : GoesOn e t coupled r
  · by_cases inTime : InTime e dt (bandStep e t coupled r)
    · rw [takeSet_inTime on inTime, transition_marks_iff, advanced_state, ceilingMet_advanced, taperDone_advanced,
        term_advanced]
      exact ⟨fun ⟨state, free, ends⟩ => ⟨⟨state, on, inTime, free⟩, ends⟩,
        fun ⟨⟨state, _, _, free⟩, ends⟩ => ⟨state, free, ends⟩⟩
    · obtain ⟨x, expired⟩ := timerStep_due (not_not.1 inTime)
      rw [(takeSet_expired on expired).1]
      exact ⟨nofun, fun h => absurd h.1.2.2.1 inTime⟩
  · refine ⟨fun marks => ?_, fun h => absurd h.1.2.1 on⟩
    by_cases same : (settleState e t coupled r).state = r.state
    · rw [takeSet_of_settled same] at marks
      split at marks
      · exact nomatch marks
      · have taper := timerStep_reach e dt _ ((transition_marks_iff e _).1 marks).1
        exact absurd (GoesOn.of_settled (by rw [← same, taper]; rfl) same) on
    · rw [takeSet_of_changed same] at marks
      exact nomatch marks

/-- A set notes the grant on entry to TAPER and where the taper law is applied (log 40). -/
theorem takeSet_noted (e : SeqEnv) (t : Option Int) (coupled : Bool) (dt : Int) (r : SeqRecord) :
    ((takeSet e t coupled dt r).1.state = .taper ∨ Tapers e t coupled dt r →
        (takeSet e t coupled dt r).1.lastGrant = e.grant)
      ∧ (¬ ((takeSet e t coupled dt r).1.state = .taper ∨ Tapers e t coupled dt r) →
        (takeSet e t coupled dt r).1.lastGrant = r.lastGrant) := by
  have notes := takeSet_notes e t coupled dt r
  dsimp only at notes
  have applied : (stateKept e t coupled r = true ∧ (timerStep e dt (settleState e t coupled r)).state = .taper
      ∧ ceilingMet e (timerStep e dt (settleState e t coupled r)) = false) ↔ Tapers e t coupled dt r := by
    constructor
    · rintro ⟨kept, reached, free⟩
      have same : (settleState e t coupled r).state = r.state := beq_iff_eq.1 kept
      have taper : r.state = .taper := same.symm.trans (timerStep_reach e dt _ reached)
      have on : GoesOn e t coupled r := .of_settled (by rw [taper]; rfl) same
      rw [on.settled] at reached free
      have inTime : InTime e dt (bandStep e t coupled r) := fun due => by
        obtain ⟨x, expired⟩ := timerStep_due due
        rw [expired] at reached
        exact nomatch reached
      rw [timerStep_inTime inTime, ceilingMet_advanced] at free
      exact ⟨taper, on, inTime, Bool.eq_false_iff.1 free⟩
    · rintro ⟨taper, on, inTime, free⟩
      refine ⟨?_, ?_, ?_⟩
      · rw [stateKept, on.settled]
        exact beq_self_eq_true _
      · rw [on.settled, timerStep_inTime inTime, advanced_state]
        exact taper
      · rw [on.settled, timerStep_inTime inTime, ceilingMet_advanced]
        exact Bool.eq_false_iff.2 free
  rw [notes, ← applied]
  exact ⟨fun noted => if_pos noted, fun kept => if_neg kept⟩

/-- A set with the cell in FULL: the recharge test (R72). -/
theorem takeSet_full (present : Present e) (full : r.state = .full) (dt : Int) : takeSet e t coupled dt r
    = (if rechargeMet e (bandStep e t coupled r) then entryReset e (bandStep e t coupled r)
      else { bandStep e t coupled r with demand := 0 }, false) := by
  have state : (bandStep e t coupled r).state = .full := full
  have settled : settleState e t coupled r = bandStep e t coupled r := by
    refine settleState_same present (by rw [full]; exact nofun) (fun charging => ?_) fun paused => ?_
    · rw [full] at charging
      exact nomatch charging
    · rw [full] at paused
      exact nomatch paused
  have timed : timerStep e dt (bandStep e t coupled r) = bandStep e t coupled r := by
    simp only [timerStep, state]
  rw [takeSet_of_settled (settled ▸ rfl), settled, timed, if_neg fun h => h rfl, transition_full state]
  dsimp only
  split
  · exact Prod.ext (entry_demanded e _) rfl
  · simp only [demandStep, demandOf, state]

theorem rechargeMet_iff (e : SeqEnv) (r : SeqRecord) : rechargeMet e r = true
    ↔ (r.full = .taper ∧ e.vc < vfullEff e r - Profile.vrech e.prof)
      ∨ (r.full = .ceiling ∧ (e.soc < r.ceiling - 20 ∨ r.ceiling = 1000)) := by
  unfold rechargeMet
  cases r.full <;> simp

/-- A charging cell stopped at its ceiling (R71). -/
theorem takeSet_stopped (on : GoesOn e t coupled r) {dt : Int} (inTime : InTime e dt (bandStep e t coupled r))
    (met : ceilingMet e (bandStep e t coupled r) = true) :
    (takeSet e t coupled dt r).1 = toFull .ceiling (bandStep e t coupled r) := by
  rw [takeSet_inTime on inTime, transition_stopped (by rw [ceilingMet_advanced]; exact met)]
  show demandStep e (toFull .ceiling (advanced e dt (bandStep e t coupled r))) = _
  unfold advanced
  split <;> rfl

/-- PRECHARGE on a set (R67). -/
theorem takeSet_precharge (on : GoesOn e t coupled r) (state : r.state = .precharge) {dt : Int}
    (inTime : InTime e dt (bandStep e t coupled r)) (free : ¬ ceilingMet e (bandStep e t coupled r) = true) :
    (takeSet e t coupled dt r).1 = if Profile.vpre e.prof + 100 ≤ e.vc then
        place e { bandStep e t coupled r with pre := r.pre + advance e (bandStep e t coupled r) dt }
      else { bandStep e t coupled r with
        pre := r.pre + advance e (bandStep e t coupled r) dt, demand := downTo 25 (Profile.ipre e.prof) } := by
  have moved := advanced_precharge (e := e) (r := bandStep e t coupled r) state dt
  rw [takeSet_inTime on inTime,
    transition_precharge (by rw [ceilingMet_advanced]; exact free) (by rw [advanced_state]; exact state), moved]
  dsimp only
  split
  · exact place_demanded e _
  · unfold demandStep demandOf
    dsimp only
    rw [show (bandStep e t coupled r).state = .precharge from state]
    rfl

/-- FAST on a set (R68). -/
theorem takeSet_fast (on : GoesOn e t coupled r) (state : r.state = .fast) {dt : Int}
    (inTime : InTime e dt (bandStep e t coupled r)) (free : ¬ ceilingMet e (bandStep e t coupled r) = true) :
    (takeSet e t coupled dt r).1 = demandStep e (fastStep e { bandStep e t coupled r with
      fast := r.fast + advance e (bandStep e t coupled r) dt }) := by
  have moved := advanced_fast (e := e) (r := bandStep e t coupled r) (.inl state) dt
  rw [takeSet_inTime on inTime,
    transition_fast (by rw [ceilingMet_advanced]; exact free) (by rw [advanced_state]; exact state), moved]
  rfl

/-- TAPER on a set (R70). -/
theorem takeSet_taper (on : GoesOn e t coupled r) (state : r.state = .taper) {dt : Int}
    (inTime : InTime e dt (bandStep e t coupled r)) (free : ¬ ceilingMet e (bandStep e t coupled r) = true) :
    (takeSet e t coupled dt r).1 = demandStep e (taperStep e { bandStep e t coupled r with
      fast := r.fast + advance e (bandStep e t coupled r) dt }).1 := by
  have moved := advanced_fast (e := e) (r := bandStep e t coupled r) (.inr state) dt
  rw [takeSet_inTime on inTime,
    transition_taper (by rw [ceilingMet_advanced]; exact free) (by rw [advanced_state]; exact state), moved]
  rfl

/-- A stage's end voltage reached for the first or the second set in a row, or not reached (R68, R69). -/
theorem fastStep_spec (state : r.state = .fast) :
    if vstepEff e r r.k ≤ e.vc then
      if r.adv = 0 then
        (fastStep e r).state = .fast ∧ (fastStep e r).k = r.k ∧ (fastStep e r).adv = 1
          ∧ demandOf e (fastStep e r) = stageCurrent e r r.k
      else if r.k < Profile.nstage e.prof then
        (fastStep e r).state = .fast ∧ (fastStep e r).k = r.k + 1 ∧ (fastStep e r).adv = 0
          ∧ demandOf e (fastStep e r) = stageCurrent e r (r.k + 1)
      else
        (fastStep e r).state = .taper ∧ (fastStep e r).k = 0 ∧ (fastStep e r).adv = 0 ∧ (fastStep e r).term = 0
          ∧ demandOf e (fastStep e r) = downTo 25 (min e.grant (taperMax e r)) ∧ (fastStep e r).lastGrant = e.grant
    else (fastStep e r).state = .fast ∧ (fastStep e r).k = r.k ∧ (fastStep e r).adv = 0
      ∧ demandOf e (fastStep e r) = stageCurrent e r r.k := by
  unfold fastStep
  by_cases reached : vstepEff e r r.k ≤ e.vc
  · rw [if_pos reached, if_pos reached]
    by_cases first : r.adv = 0
    · rw [if_pos first, if_pos (show r.adv + 1 < 2 by omega)]
      refine ⟨state, rfl, by rw [first], ?_⟩
      simp only [demandOf, state]
      rfl
    · rw [if_neg first, if_neg (show ¬ r.adv + 1 < 2 by omega)]
      by_cases more : r.k < Profile.nstage e.prof
      · rw [if_pos more, if_pos more]
        exact ⟨rfl, rfl, rfl, rfl⟩
      · rw [if_neg more, if_neg more]
        exact ⟨rfl, rfl, rfl, rfl, rfl, rfl⟩
  · rw [if_neg reached, if_neg reached]
    refine ⟨state, rfl, rfl, ?_⟩
    simp only [demandOf, state]
    rfl

/-- The taper law, and its end on the third set in a row that meets the termination test (R70). -/
theorem taperStep_spec (state : r.state = .taper) :
    (taperStep e r).1.lastGrant = e.grant ∧
      if taperDone e r = true then
        if r.term < 2 then
          (taperStep e r).1.state = .taper ∧ (taperStep e r).1.term = r.term + 1
            ∧ demandOf e (taperStep e r).1 = taperLaw e r
        else
          (taperStep e r).1.state = .full ∧ (taperStep e r).1.full = .taper ∧ demandOf e (taperStep e r).1 = 0
            ∧ (taperStep e r).1.pre = 0 ∧ (taperStep e r).1.fast = 0 ∧ (taperStep e r).1.adv = 0
            ∧ (taperStep e r).1.term = 0
      else (taperStep e r).1.state = .taper ∧ (taperStep e r).1.term = 0
        ∧ demandOf e (taperStep e r).1 = taperLaw e r := by
  refine ⟨taperStep_notes e r, ?_⟩
  unfold taperStep
  by_cases done : taperDone e r = true
  · rw [if_pos done, if_pos done]
    by_cases more : r.term < 2
    · rw [if_pos more, if_pos (show r.term + 1 < 3 by omega)]
      refine ⟨state, rfl, ?_⟩
      simp only [demandOf, state]
    · rw [if_neg more, if_neg (show ¬ r.term + 1 < 3 by omega)]
      exact ⟨rfl, rfl, rfl, rfl, rfl, rfl, rfl⟩
  · rw [if_neg done, if_neg done]
    refine ⟨state, rfl, ?_⟩
    simp only [demandOf, state]

theorem taperDone_iff (e : SeqEnv) (r : SeqRecord) : taperDone e r = true
    ↔ taperLaw e r ≤ Profile.iterm e.prof ∧ vfullEff e r - 50 ≤ e.vc := by
  simp only [taperDone, Bool.and_eq_true, decide_eq_true_eq]

end Seq

/-- Settles O17: each case of a set in which the cell is present, with the record that it gives. -/
theorem stageAdvanceAndTaperTermination : Obligations.StageAdvanceAndTaperTermination := by
  unfold Obligations.StageAdvanceAndTaperTermination
  intro s c m rest waits old step1 p bands n vfull stage grant add present inTime goesOn stopped adj d ends recharges
    enters
  obtain ⟨t, ran, became, -, marks⟩ := sequencerSetHandling_took s c m rest waits
  have added : add = Seq.advance (s.seqEnvOn c m) step1 m.dt := timeAdded_eq (s.seqEnvOn c m) step1 m.dt
  have entered (pre fast : Int) :
      enters pre fast (Seq.entry (s.seqEnvOn c m) { step1 with pre := pre, fast := fast }) := by
    show entryOutcome _ _ _ _ _ _
    rw [State.sawSet_seen]
    exact Seq.entry_outcome (s.seqEnvOn c m) step1 (m.vcAge c) rfl pre fast
  have inTime_iff : inTime ↔ Seq.InTime (s.seqEnvOn c m) m.dt step1 := by
    unfold Seq.InTime
    rw [Seq.timerDue_advanced_iff, ← added, not_or, not_and, not_and, not_le, not_le]
    rfl
  have onward (charging : old.state.charging = true) (h : goesOn) :
      Seq.GoesOn (s.seqEnvOn c m) (bandTemp m c s.folded) (s.coupledOn c m) old := ⟨h.1, charging, h.2.1⟩
  have below (h : ¬ stopped) : ¬ Seq.ceilingMet (s.seqEnvOn c m) step1 = true := fun met =>
    h ((Seq.ceilingMet_iff _ _).1 met).2
  have ends_iff : Seq.taperDone (s.seqEnvOn c m) step1 = true ↔ ends := Seq.taperDone_iff _ _
  have tapers_iff : Seq.Tapers (s.seqEnvOn c m) (bandTemp m c s.folded) (s.coupledOn c m) m.dt old
      ↔ old.state = .taper ∧ goesOn ∧ ¬ stopped := by
    have met_iff (taper : old.state = .taper) : Seq.ceilingMet (s.seqEnvOn c m) step1 = true ↔ stopped :=
      (Seq.ceilingMet_iff _ _).trans (and_iff_right (by rw [show step1.state = .taper from taper]; rfl))
    constructor
    · rintro ⟨taper, on, time, free⟩
      exact ⟨taper, ⟨on.1, on.2.2, inTime_iff.2 time⟩, mt (met_iff taper).2 free⟩
    · rintro ⟨taper, on, free⟩
      exact ⟨taper, onward (by rw [taper]; rfl) on, inTime_iff.1 on.2.2, mt (met_iff taper).1 free⟩
  refine ⟨t, ran, ?_⟩
  rw [became]
  refine ⟨?_, ?_, fun there => ⟨fun charging barred => ?_, fun paused barred => ?_, fun paused was free => ?_,
    fun full => ?_, fun resting => ?_⟩, fun on charging stop => ?_, fun on free => ⟨fun state => ?_, fun state => ?_,
    fun state => ?_⟩⟩
  · have sent : (s.setOutcome c m).2 = true ↔ old.state = .taper ∧ goesOn ∧ ¬ stopped ∧ ends ∧ 2 ≤ old.term := by
      refine (Seq.takeSet_marks_iff _ _ _ _ _).trans ?_
      rw [tapers_iff, ends_iff, and_assoc, and_assoc]
    rw [marks]
    by_cases sends : (s.setOutcome c m).2 = true
    · rw [if_pos sends, if_pos (sent.1 sends)]
    · rw [if_neg sends, if_neg (mt sent.2 sends)]
  · have noted := Seq.takeSet_noted (s.seqEnvOn c m) (bandTemp m c s.folded) (s.coupledOn c m) m.dt old
    rw [tapers_iff] at noted
    split
    · rename_i h
      exact noted.1 h
    · rename_i h
      exact noted.2 h
  · exact congrArg Prod.fst (Seq.takeSet_barred there charging barred m.dt)
  · have settled := Seq.settleState_same (e := s.seqEnvOn c m) (t := bandTemp m c s.folded)
      (coupled := s.coupledOn c m) (r := old) there (by rw [paused]; exact nofun) (by rw [paused]; exact nofun)
      fun _ => barred
    exact congrArg Prod.fst (Seq.takeSet_of_idle settled (.inr (.inr (.inl paused))) m.dt)
  · have new : (s.setOutcome c m).1 = Seq.entry (s.seqEnvOn c m) step1 :=
      congrArg Prod.fst (Seq.takeSet_resumed there paused was free m.dt)
    rw [new]
    exact entered old.pre old.fast
  · have new := congrArg Prod.fst (Seq.takeSet_full (e := s.seqEnvOn c m) (t := bandTemp m c s.folded)
      (coupled := s.coupledOn c m) there full m.dt)
    have met_iff : Seq.rechargeMet (s.seqEnvOn c m) step1 = true ↔ recharges := Seq.rechargeMet_iff _ _
    split
    · rename_i met
      rw [if_pos (met_iff.2 met)] at new
      rw [State.setOutcome, new]
      exact entered 0 0
    · rename_i met
      rw [if_neg (mt met_iff.1 met)] at new
      exact new
  · have awake : ¬ old.state.charging = true ∧ old.state ≠ .absent ∧ old.state ≠ .paused := by
      rcases resting with h | h <;> rw [h] <;> exact ⟨nofun, nofun, nofun⟩
    obtain ⟨resting', there', free'⟩ := awake
    have settled := Seq.settleState_same (e := s.seqEnvOn c m) (t := bandTemp m c s.folded)
      (coupled := s.coupledOn c m) (r := old) there there' (fun h => absurd h resting') fun h => absurd h free'
    exact congrArg Prod.fst (Seq.takeSet_of_idle settled (.inr (resting.imp_right .inr)) m.dt)
  · exact Seq.takeSet_stopped (onward charging on) (inTime_iff.1 on.2.2) ((Seq.ceilingMet_iff _ _).2 ⟨charging, stop⟩)
  · have new := Seq.takeSet_precharge (onward (by rw [state]; rfl) on) state (inTime_iff.1 on.2.2) (below free)
    rw [← added] at new
    split
    · rename_i high
      have placed := Seq.entry_eq_place (e := s.seqEnvOn c m) (r := { step1 with pre := old.pre + add }) on.1.1 on.2.1
        (le_trans (Int.le_add_of_nonneg_right (by decide)) high)
      rw [State.setOutcome, new.trans ((if_pos high).trans placed.symm)]
      exact entered (old.pre + add) old.fast
    · rename_i low
      exact new.trans (if_neg low)
  · have new := Seq.takeSet_fast (onward (by rw [state]; rfl) on) state (inTime_iff.1 on.2.2) (below free)
    rw [State.setOutcome, new]
    exact Seq.fastStep_spec (e := s.seqEnvOn c m)
      (r := { step1 with fast := old.fast + Seq.advance (s.seqEnvOn c m) step1 m.dt }) state
  · have new := Seq.takeSet_taper (onward (by rw [state]; rfl) on) state (inTime_iff.1 on.2.2) (below free)
    obtain ⟨noted, law⟩ := Seq.taperStep_spec (e := s.seqEnvOn c m)
      (r := { step1 with fast := old.fast + Seq.advance (s.seqEnvOn c m) step1 m.dt }) state
    rw [State.setOutcome, new]
    refine ⟨noted, ?_⟩
    by_cases done : ends
    · rw [if_pos done]
      exact (if_pos (ends_iff.2 done)).mp law
    · rw [if_neg done]
      exact (if_neg (mt ends_iff.1 done)).mp law

end Sys2Proof.Machine
end

section
/-! PROOFS. The requests that read (R109, R175, R208, R209, R212): what each replies, byte for byte. -/

namespace Sys2Proof.Machine

/-! ### Flags, timers and fields without a value -/

theorem foldLevels_eq (a b : Bool) :
    foldLevels a b = BitVec.ofNat 8 ((if a then 1 else 0) + if b then 2 else 0) := by
  cases a <;> cases b <;> rfl

theorem State.editBits_eq (s : State) : s.editBits = BitVec.ofNat 8
    ((if s.tables.profile.near.editing then 1 else 0) + (if s.tables.profile.far.editing then 2 else 0)
      + if s.tables.bands.editing then 4 else 0) := by
  unfold State.editBits
  cases s.tables.profile.near.editing <;> cases s.tables.profile.far.editing <;> cases s.tables.bands.editing <;> rfl

theorem StoreState.code_eq (x : StoreState) : x.code = flagCode (decide (x ≠ .idle)) := by
  cases x <;> rfl

/-- A stopped timer shows 0, and a running one its whole milliseconds, a part of one rounded either way (log 4). -/
theorem msLeft_shows (f : TimerField) (fresh : Nat) (t : Option Nat) :
    (t = none → msLeft f fresh t = 0) ∧ ∀ x, t = some x → x / 10 ≤ msLeft f fresh t ∧ msLeft f fresh t ≤ (x + 9) / 10 :=
  ⟨fun stopped => stopped ▸ rfl, fun x running => running ▸ msLeft_bounds f fresh x⟩

/-- A stage in use shows its end voltage, any other 0 (R209). -/
theorem State.vstepShown_eq (s : State) (c : Cell) {i : Nat} (hi : 1 ≤ i) : s.vstepShown c i
    = if (i : Int) ≤ (s.tables.profile.get c).active.getD 5 0 then
        min ((s.tables.profile.get c).active.getD (10 + i) 0)
          ((s.tables.profile.get c).active.getD 0 0 - Bands.voff s.tables.bands.active (s.seq.get c).band)
      else 0 := by
  have used : i ≤ Profile.nstage (s.seqEnv c).prof ↔ (i : Int) ≤ (s.tables.profile.get c).active.getD 5 0 := by
    show i ≤ ((s.tables.profile.get c).active.getD 5 0).toNat ↔ _
    omega
  unfold State.vstepShown
  dsimp only
  simp only [used]
  rfl

/-! ### The bodies in the order of R212 -/

namespace State
variable (s : State) (tag : Byte)

theorem exec_identify (hrun : s.phase = .running) :
    exec (.identify tag) s = .next (Answer.reply ⟨s, .ok, s.identifyBody⟩ 0x01 tag) :=
  s.request_running .identify tag (fun t => t.shows t.identifyBody) hrun

theorem exec_status (hrun : s.phase = .running) :
    exec (.status tag) s = .next (Answer.reply ⟨s, .ok, s.statusBody⟩ 0x02 tag) :=
  s.request_running .status tag (fun t => t.shows t.statusBody) hrun

theorem exec_measure (hrun : s.phase = .running) (sect : Byte) :
    exec (.measure tag sect) s = .next ((State.measure sect s).reply 0x03 tag) :=
  s.request_running .measure tag (State.measure sect) hrun

theorem exec_cell (hrun : s.phase = .running) (cell sect : Byte) :
    exec (.cell tag cell sect) s = .next ((State.cellRecord cell sect s).reply 0x04 tag) :=
  s.request_running .cell tag (State.cellRecord cell sect) hrun

theorem exec_allocation (hrun : s.phase = .running) :
    exec (.allocation tag) s = .next (Answer.reply ⟨s, .ok, s.allocationBody⟩ 0x05 tag) :=
  s.request_running .allocation tag (fun t => t.shows t.allocationBody) hrun

theorem exec_faults (hrun : s.phase = .running) (sect : Byte) :
    exec (.faults tag sect) s = .next ((State.faults sect s).reply 0x06 tag) :=
  s.request_running .faults tag (State.faults sect) hrun

theorem exec_inputSuspendRead (hrun : s.phase = .running) (func : Byte) :
    exec (.inputSuspendRead tag func) s = .next ((State.readSuspend func s).reply 0x11 tag) :=
  s.request_running .inputSuspend tag (State.readSuspend func) hrun

theorem measureValues_eq : s.measureValues = w16 s.meas.setDt
    ++ [s.meas.chan.vbus, s.meas.chan.ibus, s.meas.chan.vsys, s.meas.chan.iload, s.meas.chan.vcn, s.meas.chan.icn,
        s.meas.chan.vcf, s.meas.chan.icf, s.meas.chan.vfn, s.meas.chan.tn, s.meas.chan.tf, s.meas.chan.tdie].flatMap
      (fun r => w16 r.value ++ [w8 r.age])
    ++ w16 s.meas.rflex ++ [flagCode s.meas.flexValid] := rfl

theorem measureRaw_eq : s.measureRaw
    = [s.meas.chan.vbus, s.meas.chan.ibus, s.meas.chan.vsys, s.meas.chan.iload, s.meas.chan.vcn, s.meas.chan.icn,
        s.meas.chan.vcf, s.meas.chan.icf, s.meas.chan.vfn, s.meas.chan.tn, s.meas.chan.tf, s.meas.chan.tdie].flatMap
      (fun r => w16 r.raw) := rfl

theorem statusBody_eq : s.statusBody = w16 s.alloc.frame.number
    ++ [s.alloc.frame.mode.code, s.input.state.code, s.input.reasons.code, s.seq.near.state.code, s.seq.far.state.code]
    ++ w16 (s.soc .near) ++ w16 (s.soc .far)
    ++ [s.path.near.restriction.code, s.path.far.restriction.code,
        BitVec.ofNat 8 ((if s.hinge.foldA.level then 1 else 0) + if s.hinge.foldB.level then 2 else 0),
        s.hinge.position.code, flagCode s.hinge.settled]
    ++ w16 (msLeft .settle s.fresh s.hinge.settle)
    ++ [w8 s.hinge.conflicts, flagCode s.alloc.transfer.active, flagCode (decide (s.store.state ≠ .idle)),
        BitVec.ofNat 8 ((if s.tables.profile.near.editing then 1 else 0)
          + (if s.tables.profile.far.editing then 2 else 0) + if s.tables.bands.editing then 4 else 0),
        w8 s.link.queue.length]
    ++ w32 (msLeft .supervisor s.fresh s.link.supervisor) := by
  rw [← foldLevels_eq, ← s.editBits_eq, ← StoreState.code_eq]
  rfl

theorem gaugeBody_eq (c : Cell) : s.gaugeBody c
    = w32 (s.counter.get c).q ++ w16 (s.counter.get c).residue ++ w16 (s.soc c) ++ w16 (s.counter.get c).cap
      ++ w16 ((s.factory.dcap c * 800).tdiv 1000) ++ w16 ((s.factory.dcap c * 1100).tdiv 1000)
      ++ [(s.counter.get c).learning.code] ++ w32 (s.counter.get c).a ++ [(s.counter.get c).seed.code]
      ++ w16Or .seedVoltage s.fresh ((s.counter.get c).note.map (·.voltage))
      ++ w16Or .seedS s.fresh ((s.counter.get c).note.map (·.s)) ++ [seedTableCode (s.counter.get c).note]
      ++ w16 (s.counter.get c).lastWhole := rfl

theorem sequencerBody_eq (c : Cell) : s.sequencerBody c
    = [(s.seq.get c).state.code, w8 (s.seq.get c).k, (s.seq.get c).full.code, w8 (s.seq.get c).band,
        (s.seq.get c).reasons.code, w8 (s.seq.get c).adv, w8 (s.seq.get c).term]
      ++ w32 (s.seq.get c).pre ++ w32 (s.seq.get c).fast ++ w16 (s.seq.get c).demand ++ w16 (s.seq.get c).ceiling
      ++ w16 ((s.tables.profile.get c).active.getD 0 0 - Bands.voff s.tables.bands.active (s.seq.get c).band)
      ++ [1, 2, 3, 4, 5].flatMap (fun i : Nat => w16
        (if (i : Int) ≤ (s.tables.profile.get c).active.getD 5 0 then
          min ((s.tables.profile.get c).active.getD (10 + i) 0)
            ((s.tables.profile.get c).active.getD 0 0 - Bands.voff s.tables.bands.active (s.seq.get c).band)
        else 0))
      ++ w16 ((((s.tables.profile.get c).active.getD (5 + ((s.tables.profile.get c).active.getD 5 0).toNat) 0
        * Bands.pct s.tables.bands.active (s.seq.get c).band).fdiv 100).fdiv 25 * 25)
      ++ w16 ((s.seq.get c).bandT.getD (-32768)) ++ [flagCode (s.seq.get c).coupled]
      ++ w16 (s.seq.get c).lastGrant := by
  have stages : ([1, 2, 3, 4, 5].map fun i => w16 (s.vstepShown c i)).flatten
      = [1, 2, 3, 4, 5].flatMap (fun i : Nat => w16
        (if (i : Int) ≤ (s.tables.profile.get c).active.getD 5 0 then
          min ((s.tables.profile.get c).active.getD (10 + i) 0)
            ((s.tables.profile.get c).active.getD 0 0 - Bands.voff s.tables.bands.active (s.seq.get c).band)
        else 0)) := by
    rw [← List.flatMap_def]
    exact List.flatMap_congr fun i hi => by
      rw [s.vstepShown_eq c (by fin_cases hi <;> decide)]
  unfold sequencerBody
  dsimp only
  rw [stages]
  rfl

theorem pathBody_eq (c : Cell) : s.pathBody c = [(s.path.get c).ordered.code]
    ++ w16Or .orderedValue s.fresh (s.path.get c).ordered.value
    ++ [(s.path.get c).restriction.code, (s.path.get c).eff.code] ++ w16 (s.path.get c).eff.target
    ++ [w8 (msLeft .ramp s.fresh (s.path.get c).ramp), flagCode (s.path.get c).armed] := rfl

theorem allocationBody_eq : s.allocationBody = w16 s.alloc.frame.number ++ [s.alloc.frame.mode.code]
    ++ [s.alloc.frame.ilim, s.alloc.frame.sd, s.alloc.frame.vbus, s.alloc.frame.vsys, s.alloc.frame.iload,
        s.alloc.frame.soc.near, s.alloc.frame.soc.far, s.alloc.frame.demand.near, s.alloc.frame.demand.far,
        s.alloc.frame.capOut, s.alloc.frame.headroom, s.alloc.frame.capped.near, s.alloc.frame.capped.far,
        s.alloc.frame.wN, s.alloc.frame.grant.near, s.alloc.frame.grant.far].flatMap w16
    ++ w16Or .dischargeLimit s.fresh (s.alloc.frame.limit.map (·.2))
    ++ [cellCodeOr (s.alloc.frame.limit.map (·.1)), s.alloc.frame.order.near.code]
    ++ w16Or .nearFrameOrder s.fresh s.alloc.frame.order.near.value ++ [s.alloc.frame.order.far.code]
    ++ w16Or .farFrameOrder s.fresh s.alloc.frame.order.far.value ++ [flagCode s.alloc.frame.transferActive]
    ++ [flagCode s.alloc.transfer.active, cellCodeOr s.alloc.transfer.donor, cellCodeOr s.alloc.transfer.receiver]
    ++ w16 s.alloc.transfer.current ++ w32 s.alloc.transfer.moved ++ w16 s.alloc.transfer.frames
    ++ [s.alloc.transfer.lastEnd.code] ++ w16 s.alloc.transfer.cooldown ++ [flagCode s.alloc.enable] := by
  unfold allocationBody orderBytes transferBytes
  simp only [List.append_assoc, List.cons_append, List.nil_append, List.flatMap_cons, List.flatMap_nil]

theorem faultSummary_eq : s.faultSummary = le16 s.activeSet ++ le16 s.latchedSet ++ le16 s.inForceSet
    ++ FaultKind.all.map (fun k => BitVec.ofInt 8 (s.tables.protect.getD (4 + k.num) 0))
    ++ w16 (msLeft .retryN s.fresh s.prot.retry.near) ++ w16 (msLeft .retryF s.fresh s.prot.retry.far)
    ++ [s.path.near.restriction.code, s.path.far.restriction.code, flagCode s.input.reasons.die] := rfl

theorem faultHistory_eq : s.faultHistory = FaultKind.all.map (fun k => w8 (s.prot.record.get k).count)
    ++ FaultKind.all.flatMap fun k => w16 (s.prot.record.get k).lastFrame := by
  rw [List.flatMap_def]
  rfl

/-! ### Sections, cells and function values that no row names -/

theorem measure_refused {sect : Byte} (h : 1 < sect.toNat) : measure sect s = ⟨s, .badArg, []⟩ := by
  have h0 : sect ≠ 0 := by bv_omega
  have h1 : sect ≠ 1 := by bv_omega
  rw [measure, if_neg h0, if_neg h1]
  rfl

theorem faults_refused {sect : Byte} (h : 1 < sect.toNat) : faults sect s = ⟨s, .badArg, []⟩ := by
  have h0 : sect ≠ 0 := by bv_omega
  have h1 : sect ≠ 1 := by bv_omega
  rw [faults, if_neg h0, if_neg h1]
  rfl

theorem cellRecord_refused {cell sect : Byte} (h : 1 < cell.toNat ∨ 2 < sect.toNat) :
    cellRecord cell sect s = ⟨s, .badArg, []⟩ := by
  unfold cellRecord
  split
  · rename_i c named
    have named : ¬ 1 < cell.toNat := fun high => by
      have h0 : cell ≠ 0 := by bv_omega
      have h1 : cell ≠ 1 := by bv_omega
      rw [cellOf, if_neg h0, if_neg h1] at named
      exact nomatch named
    have high := h.resolve_left named
    have h0 : sect ≠ 0 := by bv_omega
    have h1 : sect ≠ 1 := by bv_omega
    have h2 : sect ≠ 2 := by bv_omega
    rw [cellSection, if_neg h0, if_neg h1, if_neg h2]
    rfl
  · rfl

theorem readSuspend_refused {func : Byte} (h : func ≠ 0) : readSuspend func s = ⟨s, .badArg, s.inputBody⟩ := by
  rw [readSuspend, if_neg h]
  rfl

/-- The record of a named cell. -/
theorem cellRecord_of_cell (c : Cell) (sect : Byte) : cellRecord (match c with
    | .near => 0
    | .far => 1) sect s = s.cellSection c sect := by
  cases c <;> rfl

end State

/-- Settles O47: each of these requests is taken with the body that the frame layout of R212 gives. -/
theorem readRequestsChangeNothing : Obligations.ReadRequestsChangeNothing := by
  unfold Obligations.ReadRequestsChangeNothing
  intro s tag hrun h d b f left holds folds kinds shows refused input
  have okay {i : Instr} {kind : Byte} {body told : List Byte}
      (ran : exec i s = .next (Answer.reply ⟨s, .ok, body⟩ kind tag)) (same : body = told) : shows i kind told := by
    rw [same] at ran
    exact ran
  have refuse {i : Instr} {kind : Byte} {body : List Byte} {a : Answer} (ran : exec i s = .next (a.reply kind tag))
      (same : a = ⟨s, .badArg, body⟩) : refused i kind body := by
    rw [same] at ran
    exact ran
  refine ⟨?_, ?_, ?_, fun sect high => ?_, fun c => ?_, fun cell sect high => ?_, ?_, ?_, ?_, fun sect high => ?_, ?_,
    fun func other => ?_⟩
  · exact okay (s.exec_identify tag hrun) rfl
  · exact ⟨_, _, msLeft_shows .settle s.fresh _, msLeft_shows .supervisor s.fresh _,
      okay (s.exec_status tag hrun) s.statusBody_eq⟩
  · exact ⟨okay (s.exec_measure tag hrun 0) s.measureValues_eq, okay (s.exec_measure tag hrun 1) s.measureRaw_eq⟩
  · exact refuse (s.exec_measure tag hrun sect) (s.measure_refused high)
  · have ran (sect : Byte) := s.exec_cell tag hrun (match c with
      | .near => 0
      | .far => 1) sect
    simp only [s.cellRecord_of_cell] at ran
    obtain ⟨voltage, voltageHolds, voltageShows⟩ := w16Or_word .seedVoltage s.fresh
      ((s.counter.get c).note.map (·.voltage))
    obtain ⟨seedS, seedHolds, seedShows⟩ := w16Or_word .seedS s.fresh ((s.counter.get c).note.map (·.s))
    obtain ⟨value, valueHolds, valueShows⟩ := w16Or_word .orderedValue s.fresh (s.path.get c).ordered.value
    have gauge := s.gaugeBody_eq c
    rw [voltageShows, seedShows] at gauge
    have path := s.pathBody_eq c
    rw [valueShows] at path
    exact ⟨⟨voltage, seedS, voltageHolds, seedHolds, okay (ran 0) gauge⟩, okay (ran 1) (s.sequencerBody_eq c),
      value, _, valueHolds, msLeft_shows .ramp s.fresh _, okay (ran 2) path⟩
  · exact refuse (s.exec_cell tag hrun cell sect) (s.cellRecord_refused high)
  · obtain ⟨limit, limitHolds, limitShows⟩ := w16Or_word .dischargeLimit s.fresh (s.alloc.frame.limit.map (·.2))
    obtain ⟨near, nearHolds, nearShows⟩ := w16Or_word .nearFrameOrder s.fresh s.alloc.frame.order.near.value
    obtain ⟨far, farHolds, farShows⟩ := w16Or_word .farFrameOrder s.fresh s.alloc.frame.order.far.value
    have body := s.allocationBody_eq
    rw [limitShows, nearShows, farShows] at body
    exact ⟨limit, near, far, limitHolds, nearHolds, farHolds, okay (s.exec_allocation tag hrun) body⟩
  · exact ⟨_, _, _, _, _, faultSet_mem _, faultSet_mem _, faultSet_mem _, msLeft_shows .retryN s.fresh _,
      msLeft_shows .retryF s.fresh _, okay (s.exec_faults tag hrun 0) s.faultSummary_eq⟩
  · exact okay (s.exec_faults tag hrun 1) s.faultHistory_eq
  · exact refuse (s.exec_faults tag hrun sect) (s.faults_refused high)
  · exact okay (s.exec_inputSuspendRead tag hrun 0) rfl
  · exact refuse (s.exec_inputSuspendRead tag hrun func) (s.readSuspend_refused other)

end Sys2Proof.Machine
end

section
/-! PROOFS. The revert of the host's settings (R78, R110, R136, R145, R187, R205, R206): its parts as one change of the
state, and what the notices that it queues leave in the queue. -/

namespace Sys2Proof.Machine

/-! ### Entries that notices of other kinds leave as they are (R201) -/

theorem enqueue_head {q : List Entry} {e : Entry} (first : q.head? = some e) {p : Payload}
    (other : e.payload.kind ≠ p.kind) (frame : Nat) : (enqueue p frame q).head? = some e := by
  cases q with
  | nil => exact nomatch first
  | cons x xs =>
    obtain rfl : x = e := Option.some.inj first
    rw [enqueue, if_neg other]
    rfl

/-- REVERTED waits in a queue. -/
abbrev RevertedWaits (q : List Entry) : Prop := ∃ e ∈ q, e.payload = .reverted

theorem enqueue_reverted (frame : Nat) (q : List Entry) : RevertedWaits (enqueue .reverted frame q) := by
  induction q with
  | nil => exact ⟨_, List.mem_singleton_self _, rfl⟩
  | cons x xs ih =>
    unfold enqueue
    split
    · refine ⟨_, List.mem_cons_self, ?_⟩
      cases x.payload <;> rfl
    · obtain ⟨e, mem, reverted⟩ := ih
      exact ⟨e, List.mem_cons_of_mem _ mem, reverted⟩

theorem enqueue_revertedWaits {q : List Entry} (waits : RevertedWaits q) {p : Payload} (other : p.kind ≠ 11)
    (frame : Nat) : RevertedWaits (enqueue p frame q) := by
  induction q with
  | nil =>
    obtain ⟨e, mem, -⟩ := waits
    exact nomatch mem
  | cons x xs ih =>
    obtain ⟨e, mem, reverted⟩ := waits
    unfold enqueue
    split
    · rename_i same
      obtain rfl | mem := List.mem_cons.1 mem
      · rw [reverted] at same
        exact absurd same.symm other
      · exact ⟨e, List.mem_cons_of_mem _ mem, reverted⟩
    · obtain rfl | mem := List.mem_cons.1 mem
      · exact ⟨e, List.mem_cons_self, reverted⟩
      · obtain ⟨e, mem, reverted⟩ := ih ⟨e, mem, reverted⟩
        exact ⟨e, List.mem_cons_of_mem _ mem, reverted⟩

/-- What every queued notice keeps of a queue, a notice keeps, whether its kind is masked or not. -/
theorem Link.notify_queue {P : List Entry → Prop} {l : Link} {p : Payload} (frame : Nat)
    (kept : P l.queue → P (enqueue p frame l.queue)) (h : P l.queue) : P (l.notify frame p).queue := by
  unfold Link.notify
  split
  · exact kept h
  · exact h

/-- A path ordered DIODE is recomputed alike whatever the input and the hinge show (R115). -/
theorem recomputed_diode {s u : State} {c : Cell} {old new : PathRecord} (diode : new.ordered = .diode)
    (h : Recomputed u c old new) : Recomputed s c old new := by
  have open' : orderTable .diode new.restriction ≠ .closed := by
    cases new.restriction <;> exact nofun
  unfold Recomputed at h ⊢
  rw [diode] at h ⊢
  dsimp only [orderConditioned] at h ⊢
  rw [if_neg open'] at h ⊢
  exact h

namespace State
variable (s : State)

/-! ### The revert's conditions and notices -/

/-- Taking HOST away returns the input to ACTIVE. -/
abbrev Resumes : Prop :=
  s.input.state = .suspended ∧ s.input.reasons.host = true ∧ s.input.reasons.die = false

/-- The revert ends the transfer in progress. -/
abbrev Ends : Prop := s.alloc.transfer.active = true ∧ s.tables.balance.getD 2 0 = 0

/-- A link with the INPUT notice of a return to ACTIVE. -/
def inputTold (shown : Int) (l : Link) : Link :=
  if s.Resumes then l.notify s.alloc.frame.number (.input .active .suspended ⟨false, false⟩ shown 1000) else l

/-- A link with the TRANSFER notice of an end of the transfer. -/
def endTold (cause : EndCause) (l : Link) : Link :=
  if s.Ends then
    l.notify s.alloc.frame.number (.transfer cause s.alloc.transfer.donor s.alloc.transfer.receiver
      s.alloc.transfer.moved s.alloc.transfer.frames)
  else l

/-- What waits on a list of input signals after the revert. -/
def issued (l : List InputSignal) : List InputSignal := l ++ if s.Resumes then [.granted] else []

/-- The input stage after the revert. -/
def inputReverted : InputStage := { s.input with
  ilim := clamp 100 3000 ((s.tables.limits.getD 0 0).fdiv 25 * 25)
  vfloor := clamp 4200 12000 ((s.tables.limits.getD 1 0).fdiv 50 * 50)
  reasons := ⟨false, s.input.reasons.die⟩
  state := if s.Resumes then .active else s.input.state
  sd := if s.Resumes then 1000 else s.input.sd
  qual := if s.Resumes then none else s.input.qual }

/-- The allocator after the revert. -/
def allocReverted (cause : EndCause) : Allocator where
  enable := s.tables.balance.getD 2 0 != 0
  transfer :=
    if s.Ends then { s.alloc.transfer with
      active := false, lastEnd := cause, cooldown := (s.tables.balance.getD 8 0).toNat }
    else s.alloc.transfer
  frame :=
    if s.Ends then { s.alloc.frame with
      transferActive := false
      order := match s.alloc.transfer.receiver with
        | none => s.alloc.frame.order
        | some c => s.alloc.frame.order.set c .diode }
    else s.alloc.frame

theorem allocReverted_number (cause : EndCause) : (s.allocReverted cause).frame.number = s.alloc.frame.number := by
  unfold allocReverted
  dsimp only
  split <;> rfl

/-- The paths after the revert: the receiver's is ordered DIODE where the transfer ends (R106). -/
def PathsReverted (paths : PerCell PathRecord) : Prop :=
  (¬ s.Ends ∨ s.alloc.transfer.receiver = none → paths = s.path)
    ∧ (s.Ends → ∀ c, s.alloc.transfer.receiver = some c →
      ∃ p, paths = s.path.set c p ∧ p.ordered = .diode
        ∧ p.restriction = (s.path.get c).restriction ∧ Recomputed s c (s.path.get c) p)

/-! ### The transfer operation's part and the input stage's part -/

theorem revertTransfer_spec (cause : EndCause) : ∃ paths, s.PathsReverted paths
    ∧ s.revertTransfer cause = { s with
      alloc := s.allocReverted cause, path := paths, link := s.endTold cause s.link } := by
  by_cases ends : s.Ends
  · have ended := s.revertTransfer_ends cause (s.revertEnds_iff.2 ends)
    unfold TransferEnded at ended
    dsimp only at ended
    split at ended
    · rename_i nobody
      refine ⟨s.path, ⟨fun _ => rfl, fun _ c hc => nomatch nobody.symm.trans hc⟩, ?_⟩
      rw [ended]
      unfold allocReverted endTold
      simp only [if_pos ends, nobody]
      rfl
    · rename_i c receiver
      obtain ⟨p, ended, diode, restriction, recomputed⟩ := ended
      refine ⟨s.path.set c p, ⟨fun h => ?_, fun _ c' hc => ?_⟩, ?_⟩
      · exact (h.elim (absurd ends) fun nobody => nomatch nobody.symm.trans receiver)
      · obtain rfl : c = c' := Option.some.inj (receiver.symm.trans hc)
        exact ⟨p, rfl, diode, restriction, recomputed_diode diode recomputed⟩
      · rw [ended]
        unfold allocReverted endTold
        simp only [if_pos ends, receiver]
        rfl
  · have stays := s.revertTransfer_stays cause (Bool.eq_false_iff.2 (mt s.revertEnds_iff.1 ends))
    refine ⟨s.path, ⟨fun _ => rfl, fun h => absurd h ends⟩, ?_⟩
    rw [stays]
    unfold allocReverted endTold
    simp only [if_neg ends]
    rfl

/-- The INPUT notice shows the old ILIM or the new one (log 44). -/
def IlimShown (shown : Int) : Prop :=
  shown = s.input.ilim ∨ shown = clamp 100 3000 ((s.tables.limits.getD 0 0).fdiv 25 * 25)

/-- The part after the input stage's part of the revert. -/
def inputDone (shown : Int) : State := { s with
  input := s.inputReverted
  link := s.inputTold shown s.link
  handed := { s.handed with
    seqSignal := s.handed.seqSignal.map s.issued
    pathSignal := s.handed.pathSignal.map s.issued
    allocSignal := s.issued s.handed.allocSignal } }

theorem revertInput_spec : ∃ shown, s.IlimShown shown ∧ s.revertInput = s.inputDone shown := by
  obtain ⟨shown, old, reverted⟩ := s.revertInput_eq
  refine ⟨shown, old, ?_⟩
  rw [reverted]
  unfold inputDone
  by_cases resumes : s.Resumes
  · simp only [s.revertResumes_iff.2 resumes, inputReverted, inputTold, if_pos resumes, if_true]
    unfold issued
    rw [if_pos resumes]
    rfl
  · simp only [Bool.eq_false_iff.2 (mt s.revertResumes_iff.1 resumes), inputReverted, inputTold, if_neg resumes]
    have same : s.issued = id := by
      funext l
      rw [issued, if_neg resumes, List.append_nil]
      rfl
    rw [same]
    rfl

/-! ### The revert as one change of the state -/

/-- What has been handed on after the revert. -/
def handedReverted (cause : EndCause) : Handed := { s.handed with
  seqSignal := s.handed.seqSignal.map s.issued
  pathSignal := s.handed.pathSignal.map s.issued
  allocSignal := if cause = .input then (s.issued s.handed.allocSignal).tail else s.issued s.handed.allocSignal
  seqInhibit :=
    ⟨s.handed.seqInhibit.near ++ if s.inhibit.near = 0 then [] else [false],
      s.handed.seqInhibit.far ++ if s.inhibit.far = 0 then [] else [false]⟩ }

/-- The part after the revert, with these paths, this link, these tables and this count of free values. -/
def stateReverted (cause : EndCause) (paths : PerCell PathRecord) (tables : Tables) (link : Link) (fresh : Nat) :
    State := { s with
  input := s.inputReverted
  inhibit := ⟨0, 0⟩
  seq := ⟨{ s.seq.near with ceiling := 1000 }, { s.seq.far with ceiling := 1000 }⟩
  alloc := s.allocReverted cause
  handed := s.handedReverted cause
  path := paths, tables := tables, link := link, fresh := fresh }

/-- The link after the revert, in either order of its two notices. -/
def LinkReverted (cause : EndCause) (shown : Int) (base l : Link) : Prop :=
  l = s.endTold cause (s.inputTold shown base) ∨ cause = .host ∧ l = s.inputTold shown (s.endTold cause base)

/-- The transfer ends on the host's setting, or on a grant that waits for the allocator (log 30). -/
def CauseOf (cause : EndCause) : Prop :=
  cause = .host ∨ cause = .input ∧ s.Resumes ∧ s.Ends ∧ s.handed.allocSignal.head? ≠ some .withdrawn

/-- A state is the part after the revert, from a link that takes the notices. -/
def Reverted (base : Link) (u : State) : Prop :=
  ∃ cause shown, s.IlimShown shown ∧ s.CauseOf cause ∧ s.LinkReverted cause shown base u.link
    ∧ s.PathsReverted u.path ∧ u = s.stateReverted cause u.path u.tables u.link u.fresh

variable {s}

/-- The paths after the revert hang on the paths, the transfer and BALANCE alone. -/
theorem PathsReverted.congr {u : State} {paths : PerCell PathRecord} (h : u.PathsReverted paths)
    (path : u.path = s.path) (transfer : u.alloc.transfer = s.alloc.transfer)
    (balance : u.tables.balance = s.tables.balance) : s.PathsReverted paths := by
  unfold PathsReverted Ends at h ⊢
  rw [path, transfer, balance] at h
  refine ⟨h.1, fun ends c receiver => ?_⟩
  obtain ⟨p, set, diode, restriction, recomputed⟩ := h.2 ends c receiver
  exact ⟨p, set, diode, restriction, recomputed_diode diode recomputed⟩

theorem takeEvent_granted {h taken : Handed} (took : h.takeEvent .inputGranted = some taken) :
    ∃ rest, h.allocSignal = .granted :: rest ∧ taken = { h with allocSignal := rest } := by
  unfold Handed.takeEvent at took
  rw [if_pos rfl] at took
  split at took
  · rename_i rest waits
    exact ⟨rest, waits, (Option.some.inj took).symm⟩
  all_goals exact nomatch took

/-- The ceilings, the inhibit sets and the free values, after the input stage and the transfer operation. -/
theorem revert_eq {t : State} (done : s.revertInputAndTransfer = t) : s.revert = { t with
    seq := ⟨{ t.seq.near with ceiling := 1000 }, { t.seq.far with ceiling := 1000 }⟩
    inhibit := ⟨0, 0⟩
    handed := { t.handed with
      seqInhibit :=
        ⟨t.handed.seqInhibit.near ++ (if t.inhibit.near = 0 then [] else [false]),
          t.handed.seqInhibit.far ++ (if t.inhibit.far = 0 then [] else [false])⟩ }
    fresh := t.fresh + 1 } := by
  unfold revert
  dsimp only
  rw [done, revertInhibits_eq, revertCeilings_eq]
  rfl

variable (s)

/-- The transfer operation before the input stage. -/
theorem revert_transferFirst (order : s.revertInputAndTransfer = (s.revertTransfer .host).revertInput) :
    s.Reverted s.link s.revert := by
  obtain ⟨paths, pathsOk, moved⟩ := s.revertTransfer_spec .host
  rw [moved] at order
  obtain ⟨shown, shownOk, input⟩ := State.revertInput_spec { s with
    alloc := s.allocReverted .host, path := paths, link := s.endTold .host s.link }
  have told (l : Link) : State.inputTold { s with
      alloc := s.allocReverted .host, path := paths, link := s.endTold .host s.link } shown l
      = s.inputTold shown l := by
    unfold inputTold
    dsimp only
    rw [allocReverted_number]
  rw [inputDone, told] at input
  have whole : s.revert = s.stateReverted .host paths s.tables (s.inputTold shown (s.endTold .host s.link))
      (s.fresh + 1) := revert_eq (order.trans input)
  refine ⟨.host, shown, shownOk, .inl rfl, .inr ⟨rfl, ?_⟩, ?_, ?_⟩
  · rw [whole]
    rfl
  · rw [whole]
    exact pathsOk
  · rw [whole]
    rfl

/-- The input stage before the transfer operation, which may take a grant that waits for it. -/
theorem revert_inputFirst (resumes : s.Resumes) (ends : s.Ends) {grantFirst : Bool}
    (order : s.revertInputAndTransfer = s.revertInput.revertTransferAfterGrant grantFirst) :
    s.Reverted s.link s.revert := by
  obtain ⟨shown, shownOk, input⟩ := s.revertInput_spec
  have result {cause : EndCause} {paths : PerCell PathRecord} (known : s.CauseOf cause)
      (pathsOk : s.PathsReverted paths)
      (whole : s.revert = s.stateReverted cause paths s.tables (s.endTold cause (s.inputTold shown s.link))
        (s.fresh + 1)) : s.Reverted s.link s.revert := by
    refine ⟨cause, shown, shownOk, known, .inl ?_, ?_, ?_⟩
    · rw [whole]
      rfl
    · rw [whole]
      exact pathsOk
    · rw [whole]
      rfl
  rw [input] at order
  unfold revertTransferAfterGrant at order
  split at order
  · rename_i h granted
    have granted : (s.inputDone shown).handed.takeEvent .inputGranted = some h := by
      cases grantFirst with
      | false => exact nomatch granted
      | true => exact granted
    obtain ⟨rest, waits, rfl⟩ := takeEvent_granted granted
    have waits : s.issued s.handed.allocSignal = .granted :: rest := waits
    have head : s.handed.allocSignal.head? ≠ some .withdrawn := by
      cases queue : s.handed.allocSignal with
      | nil => exact nofun
      | cons x xs =>
        rw [queue] at waits
        obtain rfl : x = .granted := (List.cons.inj waits).1
        exact nofun
    obtain ⟨paths, pathsOk, moved⟩ := ((s.inputDone shown).setHanded
      { (s.inputDone shown).handed with allocSignal := rest }).revertTransfer_spec .input
    have tail : rest = (s.issued s.handed.allocSignal).tail := by rw [waits]; rfl
    refine result (.inr ⟨rfl, resumes, ends, head⟩) (pathsOk.congr rfl rfl rfl)
      ((revert_eq (order.trans moved)).trans ?_)
    rw [tail]
    rfl
  · obtain ⟨paths, pathsOk, moved⟩ := (s.inputDone shown).revertTransfer_spec .host
    exact result (.inl rfl) (pathsOk.congr rfl rfl rfl) (revert_eq (order.trans moved))

/-- The revert, in either order of the input stage and the transfer operation (R205, log 30). -/
theorem revert_reverted : s.Reverted s.link s.revert := by
  by_cases first : (s.revertEnds && s.revertResumes && Config.revertInputFirst s.fresh) = true
  · obtain ⟨⟨ends, resumes⟩, -⟩ : (s.revertEnds = true ∧ s.revertResumes = true) ∧ _ := by
      simpa only [Bool.and_eq_true] using first
    exact s.revert_inputFirst (s.revertResumes_iff.1 resumes) (s.revertEnds_iff.1 ends) (if_pos first)
  · exact s.revert_transferFirst (if_neg first)

/-- The revert from another link. -/
theorem revert_from (base : Link) : s.Reverted base { s with link := base }.revert :=
  State.revert_reverted { s with link := base }

variable {s}

/-- The tables and the free values do not matter for what the revert makes of the rest. -/
theorem Reverted.setTables {base : Link} {u : State} (h : s.Reverted base u) (tables : Tables) :
    s.Reverted base (u.setTables tables) := by
  obtain ⟨cause, shown, ilim, known, link, paths, whole⟩ := h
  refine ⟨cause, shown, ilim, known, link, paths, ?_⟩
  show { u with tables := tables } = s.stateReverted cause u.path tables u.link u.fresh
  rw [whole]
  rfl

theorem Reverted.discardPending {base : Link} {u : State} (h : s.Reverted base u) :
    s.Reverted base u.discardPending := h.setTables _

/-- What INPUT and TRANSFER notices keep of a link holds of the link after the revert. -/
theorem Reverted.link_keeps {base : Link} {u : State} (h : s.Reverted base u) {P : Link → Prop}
    (kept : ∀ (l : Link) (frame : Nat) (p : Payload), p.kind = 2 ∨ p.kind = 6 → P l → P (l.notify frame p))
    (start : P base) : P u.link := by
  obtain ⟨cause, shown, -, -, link, -⟩ := h
  have input (l : Link) (hl : P l) : P (s.inputTold shown l) := by
    unfold inputTold
    split
    · exact kept l _ _ (.inl rfl) hl
    · exact hl
  have transfer (l : Link) (hl : P l) : P (s.endTold cause l) := by
    unfold endTold
    split
    · exact kept l _ _ (.inr rfl) hl
    · exact hl
  rcases link with link | ⟨-, link⟩ <;> rw [link]
  · exact transfer _ (input _ start)
  · exact input _ (transfer _ start)

end State

/-- The link as a soft reset opens it again (R206). -/
def Link.reopened (l : Link) (frame : Nat) : Link :=
  { l with queue := [⟨.powerup .softReset, 1, frame⟩], enabled := 0x1FFE }

theorem State.reopenQueue_eq (s : State) :
    s.reopenQueue = { s with link := s.link.reopened s.alloc.frame.number } := by
  have enabled : hasBit allKinds (Payload.powerup .softReset).kind = true := by decide
  have queued := Link.notify_enabled_kind { s.link with queue := [], enabled := allKinds } s.alloc.frame.number
    (.powerup .softReset) enabled
  exact congrArg s.setLink queued

/-- SUPERVISOR_EXPIRY with the supervisor's time run out (R204, R205). -/
theorem exec_supervisorExpiry {s : State} (out : s.link.supervisor = some 0) : exec .supervisorExpiry s = .next
    { s with link := { s.link with supervisor := none }.notify s.alloc.frame.number .reverted }.revert := by
  show execSupervisorExpiry s = _
  unfold execSupervisorExpiry
  rw [if_pos ((timeUp_iff _).2 out)]
  rfl

theorem exec_softReset {s : State} (tag : Byte) (hrun : s.phase = .running) : exec (.softReset tag) s = .next
    (Answer.reply ⟨{ s with link := s.link.reopened s.alloc.frame.number }.revert.discardPending, .ok, []⟩
      0x3F tag) := by
  have carried : State.softReset s = ⟨s.reopenQueue.revert.discardPending, .ok, []⟩ := rfl
  have ran := s.request_running .softReset tag State.softReset hrun
  rw [carried, s.reopenQueue_eq] at ran
  exact ran

theorem State.revert_tables (s : State) : s.revert.tables = s.tables := by
  have tables (u : State) : u.stock.tables = u.tables := rfl
  rw [← tables, s.revert_stock, tables]

/-- Settles O46: the revert taken from the link that each of the two commands gives it. -/
theorem revertReturnsTheHostSettings : Obligations.RevertReturnsTheHostSettings := by
  unfold Obligations.RevertReturnsTheHostSettings
  intro s resumes r ends frame ilim issued told reverted
  have spec {base : Link} {u : State} (h : s.Reverted base u) : reverted base u := by
    obtain ⟨cause, shown, ilim, known, link, ⟨paths, receiver⟩, whole⟩ := h
    exact ⟨cause, shown, ilim, known, link, paths, receiver, whole⟩
  refine ⟨fun left => ?_, fun out => ?_, fun tag hrun => ?_⟩
  · show execSupervisorExpiry s = .next s
    exact if_neg (mt (timeUp_iff _).1 left)
  · have done := s.revert_from ({ s.link with supervisor := none }.notify s.alloc.frame.number .reverted)
    refine ⟨_, exec_supervisorExpiry out, State.revert_tables _, spec done, ?_, ?_, ?_, fun enabled => ?_⟩
    · exact done.link_keeps (P := fun l => l.supervisor = none)
        (fun l _ _ _ h => (Link.notify_supervisor ..).trans h) (Link.notify_supervisor ..)
    · exact done.link_keeps (P := fun l => l.reply = s.link.reply)
        (fun l _ _ _ h => (Link.notify_reply ..).trans h) (Link.notify_reply ..)
    · exact done.link_keeps (P := fun l => l.enabled = s.link.enabled)
        (fun l _ _ _ h => (Link.notify_enabled ..).trans h) (Link.notify_enabled ..)
    · refine done.link_keeps (P := fun l => RevertedWaits l.queue) (fun l f p kind h => ?_) ?_
      · exact Link.notify_queue f (fun waits => enqueue_revertedWaits waits (by omega) f) h
      · rw [Link.notify_enabled_kind { s.link with supervisor := none } s.alloc.frame.number .reverted enabled]
        exact enqueue_reverted _ _
  · have done := (s.revert_from (s.link.reopened s.alloc.frame.number)).discardPending
    refine ⟨_, exec_softReset tag hrun, spec done, ?_, ?_, ?_, ?_⟩
    · exact done.link_keeps (P := fun l => l.enabled = 0x1FFE)
        (fun l _ _ _ h => (Link.notify_enabled ..).trans h) rfl
    · exact done.link_keeps (P := fun l => l.supervisor = s.link.supervisor)
        (fun l _ _ _ h => (Link.notify_supervisor ..).trans h) rfl
    · refine done.link_keeps
        (P := fun l => l.queue.head? = some ⟨.powerup .softReset, 1, s.alloc.frame.number⟩) (fun l f p kind h => ?_) rfl
      refine Link.notify_queue (P := fun q => q.head? = some ⟨.powerup .softReset, 1, s.alloc.frame.number⟩) f
        (fun first => enqueue_head first (fun same => ?_) f) h
      have same : 1 = p.kind := same
      omega
    · show (State.revert _).tables.discardPending = _
      rw [State.revert_tables]
      rfl

end Sys2Proof.Machine
end
